-- ==== Sys2Proof/Word.lean ====
section
/-! DEFINITION. The word types of the command port and of the block's registers (00_scope.md R9 to R11). -/

namespace Sys2Proof

/-- A command word or a response word: 32 bits, bit 0 the least significant (R9, R11, R83). -/
abbrev Word := BitVec 32

/-- A 16-bit unsigned register: samples, levels, RESULT, STEPS, THRESH, CDOWN, DBT, NEXT (R10). -/
abbrev Half := BitVec 16

end Sys2Proof
end

