-- ==== Sys2Proof/Syntax.lean ====
section
/-! DEFINITION. The commands of the block: one constructor for each row of spec/opcode_table.json (30_encoding.md
R105), with the operand fields of R104 as the word holds them (log 8). -/

namespace Sys2Proof

/-- A command with its operand fields (R104, R105). -/
inductive Instr where
  /-- NOP (R300). -/
  | nop
  /-- STATUS (R301). -/
  | status
  /-- CLRERR (R302). -/
  | clrerr
  /-- FDE_UPD MOD, SAMPLE (R151). -/
  | fdeUpd (mod : BitVec 4) (sample : Half)
  /-- FDE_RD MOD, SEL (R152). -/
  | fdeRd (mod : BitVec 4) (sel : BitVec 4)
  /-- MOT_MOVE MODE, D, THRESH; D = true is deferred (R222). -/
  | motMove (mode : BitVec 4) (deferred : Bool) (thresh : Half)
  /-- MOT_STOP (R223). -/
  | motStop
  /-- MOT_RD SEL (R224). -/
  | motRd (sel : BitVec 4)
  /-- DB_BLK PIN (R183). -/
  | dbBlk (pin : BitVec 4)
  /-- DB_START PIN (R184). -/
  | dbStart (pin : BitVec 4)
  /-- DB_ADV (R185). -/
  | dbAdv
  /-- DB_STAT SEL (R186). -/
  | dbStat (sel : BitVec 4)
  /-- DB_CLR (R187). -/
  | dbClr
  /-- PRBS_GEN KIND (R274). -/
  | prbsGen (kind : BitVec 2)
  /-- PRBS_SEED SEED (R276). -/
  | prbsSeed (seed : BitVec 15)
  /-- PRBS_RD (R277). -/
  | prbsRd
deriving DecidableEq, Repr

end Sys2Proof
end

