-- ==== Sys2Proof/Decode.lean ====
section
/-! DEFINITION. Decoding and encoding of command words (30_encoding.md R101 to R113). `decode` is total on every word
and rejects by name; `encode` lays the fields out by the formats of R103. -/

namespace Sys2Proof

/-! ### The opcode map (R102, R105) -/

/-- The sixteen opcodes of R105. -/
inductive Opcode where
  | nop | status | clrerr | fdeUpd | fdeRd | motMove | motStop | motRd
  | dbBlk | dbStart | dbAdv | dbStat | dbClr | prbsGen | prbsSeed | prbsRd
deriving DecidableEq, Repr

/-- The OP value of each command (R105). -/
def Opcode.code : Opcode → BitVec 8
  | .nop => 0x00 | .status => 0x01 | .clrerr => 0x02
  | .fdeUpd => 0x10 | .fdeRd => 0x11
  | .motMove => 0x20 | .motStop => 0x21 | .motRd => 0x22
  | .dbBlk => 0x30 | .dbStart => 0x31 | .dbAdv => 0x32 | .dbStat => 0x33 | .dbClr => 0x34
  | .prbsGen => 0x40 | .prbsSeed => 0x41 | .prbsRd => 0x42

/-- Every opcode, in the order of R105. -/
def Opcode.all : List Opcode :=
  [.nop, .status, .clrerr, .fdeUpd, .fdeRd, .motMove, .motStop, .motRd,
   .dbBlk, .dbStart, .dbAdv, .dbStat, .dbClr, .prbsGen, .prbsSeed, .prbsRd]

/-- The opcode with a given OP value; none is reserved (R108). -/
def opcodeOf (op : BitVec 8) : Option Opcode := Opcode.all.find? fun o => decide (o.code = op)

/-! ### The reserved field values (R106: checked by the decoder, and first of all by the command itself) -/

/-- FDE_RD selectors: "selector values 7..15 are reserved" (R110). -/
def fdeSelLegal (sel : BitVec 4) : Bool := decide (sel.toNat < 7)

/-- MOT_RD selectors: "selector values 5..15 are reserved" (R111). -/
def motSelLegal (sel : BitVec 4) : Bool := decide (sel.toNat < 5)

/-- MOT_MOVE modes: "MODE = 0 (stop) or MODE in 9..15 is illegal" (R112). -/
def modeLegal (mode : BitVec 4) : Bool := !decide (mode = 0#4) && decide (mode.toNat < 9)

/-- DB_STAT selectors: "selector values 3..15 are reserved" (R113). -/
def dbSelLegal (sel : BitVec 4) : Bool := decide (sel.toNat < 3)

/-- Every value of the field is legal (PIN). -/
def anyLegal (_ : BitVec 4) : Bool := true

/-! ### Decoding -/

/-- Why a word is no command. Each takes the Illegal path of 60_exceptions.md R311. -/
inductive Reject where
  /-- The opcode is not listed (R108). -/
  | reservedOpcode
  /-- A reserved bit of the format is set (R107). -/
  | reservedBits
  /-- A selector value is reserved (R110, R111, R113). -/
  | reservedSelector
  /-- MODE is 0 or 9..15 (R112). -/
  | reservedMode
deriving DecidableEq, Repr

/-- Bits `[hi:lo]` of a word, with `len = hi - lo + 1` (R11). -/
abbrev field (lo len : Nat) (cmd : Word) : BitVec len := cmd.extractLsb' lo len

/-- Bits `[31:24]`, the opcode (R102). -/
abbrev opField (cmd : Word) : BitVec 8 := field 24 8 cmd

/-- Format Z: bits [23:0] reserved. -/
def formatZ (i : Instr) (cmd : Word) : Except Reject Instr :=
  if field 0 24 cmd = 0#24 then .ok i else .error .reservedBits

/-- Format FU: bits [23:20] reserved, MOD in [19:16], SAMPLE in [15:0]. -/
def formatFU (cmd : Word) : Except Reject Instr :=
  if field 20 4 cmd = 0#4 then .ok (.fdeUpd (field 16 4 cmd) (field 0 16 cmd)) else .error .reservedBits

/-- Format FR: bits [23:20] and [15:4] reserved, MOD in [19:16], SEL in [3:0], 0..6 (R110). -/
def formatFR (cmd : Word) : Except Reject Instr :=
  if field 20 4 cmd = 0#4 ∧ field 4 12 cmd = 0#12 then
    if fdeSelLegal (field 0 4 cmd) then .ok (.fdeRd (field 16 4 cmd) (field 0 4 cmd)) else .error .reservedSelector
  else .error .reservedBits

/-- Format MM: MODE in [23:20], 1..8 (R112), bits [19:17] reserved, D in [16], THRESH in [15:0]. -/
def formatMM (cmd : Word) : Except Reject Instr :=
  if field 17 3 cmd = 0#3 then
    if modeLegal (field 20 4 cmd) then
      .ok (.motMove (field 20 4 cmd) (cmd.getLsbD 16) (field 0 16 cmd))
    else .error .reservedMode
  else .error .reservedBits

/-- Format S4: bits [23:4] reserved, a selector or a pin in [3:0]; `legal` are its legal values. -/
def formatS4 (legal : BitVec 4 → Bool) (i : BitVec 4 → Instr) (cmd : Word) : Except Reject Instr :=
  if field 4 20 cmd = 0#20 then
    if legal (field 0 4 cmd) then .ok (i (field 0 4 cmd)) else .error .reservedSelector
  else .error .reservedBits

/-- Format K2: bits [23:2] reserved, KIND in [1:0]. -/
def formatK2 (cmd : Word) : Except Reject Instr :=
  if field 2 22 cmd = 0#22 then .ok (.prbsGen (field 0 2 cmd)) else .error .reservedBits

/-- Format SD: bits [23:15] reserved, SEED in [14:0]. -/
def formatSD (cmd : Word) : Except Reject Instr :=
  if field 15 9 cmd = 0#9 then .ok (.prbsSeed (field 0 15 cmd)) else .error .reservedBits

/-- The body of a word, by its opcode's format (R103, R105). -/
def decodeBody : Opcode → Word → Except Reject Instr
  | .nop => formatZ .nop
  | .status => formatZ .status
  | .clrerr => formatZ .clrerr
  | .fdeUpd => formatFU
  | .fdeRd => formatFR
  | .motMove => formatMM
  | .motStop => formatZ .motStop
  | .motRd => formatS4 motSelLegal .motRd
  | .dbBlk => formatS4 anyLegal .dbBlk
  | .dbStart => formatS4 anyLegal .dbStart
  | .dbAdv => formatZ .dbAdv
  | .dbStat => formatS4 dbSelLegal .dbStat
  | .dbClr => formatZ .dbClr
  | .prbsGen => formatK2
  | .prbsSeed => formatSD
  | .prbsRd => formatZ .prbsRd

/-- The command a word stands for, or why it stands for none: total on every 32-bit word (R106). -/
def decode (cmd : Word) : Except Reject Instr :=
  match opcodeOf (opField cmd) with
  | none => .error .reservedOpcode
  | some o => decodeBody o cmd

/-! ### Encoding -/

/-- The opcode of a command. -/
def Instr.opcode : Instr → Opcode
  | .nop => .nop
  | .status => .status
  | .clrerr => .clrerr
  | .fdeUpd _ _ => .fdeUpd
  | .fdeRd _ _ => .fdeRd
  | .motMove _ _ _ => .motMove
  | .motStop => .motStop
  | .motRd _ => .motRd
  | .dbBlk _ => .dbBlk
  | .dbStart _ => .dbStart
  | .dbAdv => .dbAdv
  | .dbStat _ => .dbStat
  | .dbClr => .dbClr
  | .prbsGen _ => .prbsGen
  | .prbsSeed _ => .prbsSeed
  | .prbsRd => .prbsRd

/-- Bits `[23:0]` of a command's word, by the bit patterns of R103. -/
def Instr.body : Instr → BitVec 24
  | .nop | .status | .clrerr => 0#24
  | .fdeUpd mod sample => 0#4 ++ mod ++ sample
  | .fdeRd mod sel => 0#4 ++ mod ++ 0#12 ++ sel
  | .motMove mode d thresh => mode ++ 0#3 ++ BitVec.ofBool d ++ thresh
  | .motStop => 0#24
  | .motRd sel => 0#20 ++ sel
  | .dbBlk pin => 0#20 ++ pin
  | .dbStart pin => 0#20 ++ pin
  | .dbAdv => 0#24
  | .dbStat sel => 0#20 ++ sel
  | .dbClr => 0#24
  | .prbsGen kind => 0#22 ++ kind
  | .prbsSeed seed => 0#9 ++ seed
  | .prbsRd => 0#24

/-- The word of a command: the opcode in [31:24], the body in [23:0] (R102, R103). -/
def encode (i : Instr) : Word := i.opcode.code ++ i.body

/-! ### The opcode table as masks and patterns (R106, opcode_table.json) -/

/-- One row of opcode_table.json: a word belongs to the row when its bits under `mask` equal `pattern` (R106, R107). -/
structure OpcodeRow where
  opcode : Opcode
  mask : Word
  pattern : Word
deriving DecidableEq, Repr

/-- opcode_table.json, row by row. -/
def opcodeTable : List OpcodeRow :=
  [⟨.nop, 0xFFFFFFFF, 0x00000000⟩, ⟨.status, 0xFFFFFFFF, 0x01000000⟩, ⟨.clrerr, 0xFFFFFFFF, 0x02000000⟩,
   ⟨.fdeUpd, 0xFFF00000, 0x10000000⟩, ⟨.fdeRd, 0xFFF0FFF0, 0x11000000⟩, ⟨.motMove, 0xFF0E0000, 0x20000000⟩,
   ⟨.motStop, 0xFFFFFFFF, 0x21000000⟩, ⟨.motRd, 0xFFFFFFF0, 0x22000000⟩] ++
  [⟨.dbBlk, 0xFFFFFFF0, 0x30000000⟩, ⟨.dbStart, 0xFFFFFFF0, 0x31000000⟩, ⟨.dbAdv, 0xFFFFFFFF, 0x32000000⟩,
   ⟨.dbStat, 0xFFFFFFF0, 0x33000000⟩, ⟨.dbClr, 0xFFFFFFFF, 0x34000000⟩, ⟨.prbsGen, 0xFFFFFFFC, 0x40000000⟩,
   ⟨.prbsSeed, 0xFFFF8000, 0x41000000⟩, ⟨.prbsRd, 0xFFFFFFFF, 0x42000000⟩]

/-! ### The host's view of the table's numbering -/

/-- The word of `nbits` bits that the host numbers as opcode_table.json does, as the port receives it: one whole word,
bit i of weight 2^i (R83). -/
def tableWord (nbits w : Nat) : Word := BitVec.ofNat 32 (w % 2 ^ nbits)

/-- The command the decoder reads from the table's word. -/
def decodeTableWord (nbits w : Nat) : Option Instr :=
  match decode (tableWord nbits w) with
  | .ok i => some i
  | .error _ => none

end Sys2Proof
end

