-- ==== Sys2Proof/Config.lean ====
section
/-! DEFINITION. What is fixed for one block and what the spec leaves open: the source constants and the OPEN
parameters of 00_scope.md R10, the agents of R7, and the two free constants (no body: nothing can evaluate them). -/

namespace Sys2Proof

/-! ### Constants the spec fixes (R10) -/

/-- REFRACT: the idle count the FDE must exceed before it evaluates (R10, R143). -/
def Config.refract : Nat := 11
/-- SUM_THR: the gradient-sum threshold (R10, R146). -/
def Config.sumThr : Int := 5
/-- AGE_MIN: the low end of the half-period window (R10, R149). -/
def Config.ageMin : Nat := 18
/-- AGE_MAX: the high end of the half-period window (R10, R149). -/
def Config.ageMax : Nat := 25
/-- TIMEOUT: the idle count that clears the log (R10, R150). -/
def Config.timeout : Nat := 42
/-- ROT_SUPPRESS: the step count that rotation timeouts must exceed (R10, R150). -/
def Config.rotSuppress : Nat := 300

/-! ### The OPEN parameters (R10, 92_eei_decisions.md) -/

/-- TIME_FLOOR_BIT: 11 or 12 (R10, D13). -/
inductive TimeFloor where
  | bit11
  | bit12
deriving DecidableEq, Repr, Inhabited

/-- The OPEN parameters of R10. PORT_BINDING is not among them: no rule depends on it (R82; log 11). -/
structure Params where
  /-- SOFTSTART_TICKS, 1..65535 (D7). -/
  softstart : Half
  /-- BLK_WINDOW, 1..65535 (D9). -/
  blkWindow : Half
  /-- NB_WINDOW, 1..65535 (D9). -/
  nbWindow : Half
  /-- NB_INC, 1..NB_WINDOW (D9). -/
  nbInc : Half
  /-- PRBS_FALLBACK, a nonzero 15-bit value (D12). -/
  fallback : BitVec 15
  /-- TIME_FLOOR_BIT (D13). -/
  timeFloor : TimeFloor
deriving DecidableEq, Repr, Inhabited

/-- The constraints of R10 on the OPEN parameters. -/
structure Params.Legal (p : Params) : Prop where
  softstart_pos : 1 ≤ p.softstart.toNat
  blkWindow_pos : 1 ≤ p.blkWindow.toNat
  nbWindow_pos : 1 ≤ p.nbWindow.toNat
  nbInc_pos : 1 ≤ p.nbInc.toNat
  nbInc_le : p.nbInc.toNat ≤ p.nbWindow.toNat
  fallback_ne : p.fallback ≠ 0#15

/-- A value out of its constraint is moved to the nearest one inside it; a legal value stays. -/
def Params.legalise (p : Params) : Params :=
  let up (v : Half) : Half := if v = 0#16 then 1#16 else v
  let window := up p.nbWindow
  { softstart := up p.softstart
    blkWindow := up p.blkWindow
    nbWindow := window
    nbInc := if window.toNat < p.nbInc.toNat then window else up p.nbInc
    fallback := if p.fallback = 0#15 then 1#15 else p.fallback
    timeFloor := p.timeFloor }

/-- FREE: the OPEN parameters of the block that is reset, before their constraints are applied (DESIGN CHOICE, log 5). -/
opaque Config.openParams : Params

/-- The OPEN parameters State.reset carries: some values that meet R10's constraints, nothing more is known. -/
def Config.params : Params := Config.openParams.legalise

/-! ### Agents and turns (R7, R88, R94) -/

/-- Who takes a step: the four agents of R7, and the external reset line of R340. -/
inductive Agent where
  | host
  | mtimer
  | dbtimer
  | env
  | resetLine
deriving DecidableEq, Repr, Inhabited

/-- One turn of the interleaving (R88): who moves, and what `din` and `frc` read at that instant (R94: a fresh draw
each time). -/
structure Turn where
  agent : Agent
  din : Half
  frc : Half
deriving DecidableEq, Repr, Inhabited

/-- FREE: the turn numbered n, where no turn is scripted: any agent, any input levels (DESIGN CHOICE, log 1). -/
opaque Config.freeTurn : Nat → Turn

end Sys2Proof
end

