-- ==== Sys2Proof/Machine/State.lean ====
section
/-! DEFINITION. Every piece of state the spec gives the block (10_state.md), the model's own fields, the reasons a step
can stop, and the state after reset (70_reset_and_hazards.md R340). -/

namespace Sys2Proof.Machine

/-! ### Coded fields: one name for each legal code (log 9) -/

/-- The nine modes, in the order of their codes 0..8 (R41). -/
inductive Mode where
  | stop | fwd | rev | pivotCw | pivotCcw | turnFr | turnFl | turnBr | turnBl
deriving DecidableEq, Repr, Inhabited

/-- The interval class of the callback: 0 OFF, 1 SLOW, 2 FAST (R48). -/
inductive Interval where
  | off | slow | fast
deriving DecidableEq, Repr, Inhabited

/-- The owner of the debounce timer: 0 FREE, 1 BLOCKING, 2 SESSION (R55, R56). -/
inductive Owner where
  | free | blocking | session
deriving DecidableEq, Repr, Inhabited

/-- The session status: 0 IDLE, 1 RUNNING, 2 SUCCEEDED, 3 FAILED (R55, R57). -/
inductive SessionStatus where
  | idle | running | succeeded | failed
deriving DecidableEq, Repr, Inhabited

/-- A gradient sign: -1, 0 or +1 (R33, R35). -/
inductive Sign where
  | neg | zero | pos
deriving DecidableEq, Repr, Inhabited

/-! ### The four units -/

/-- One slot of the extremum log (R33, R37). -/
structure LogSlot where
  level : Half
  age : BitVec 8
deriving DecidableEq, Repr, Inhabited

/-- The record `F[m]` of one FDE module, its rings indexed by age: index 0 is the newest (R33 to R38). -/
structure FdeModule where
  /-- `S[0..20]`. -/
  samples : Vector Half 21
  /-- `G[0..19]`. -/
  grads : Vector Sign 20
  /-- `IDLE`. -/
  idle : BitVec 8
  /-- `LOG[0]`, the older extremum. -/
  log0 : LogSlot
  /-- `LOG[1]`, the most recent extremum. -/
  log1 : LogSlot
  /-- `RESULT`. -/
  result : Half
deriving DecidableEq, Repr

/-- The Motor Phase Sequencer registers (R40). -/
structure Mps where
  mode : Mode
  prev : Mode
  phase : BitVec 3
  steps : Half
  thresh : Half
  done : Bool
  ival : Interval
  oe : Bool
  cdown : Half
deriving DecidableEq, Repr

/-- The Debounce Unit registers (R55). -/
structure Dbu where
  own : Owner
  dbt : Half
  spin : BitVec 4
  /-- `DBU.NEXT`, the DBT value of the next sample point (R59). -/
  nextAt : Half
  sstat : SessionStatus
  bpin : BitVec 4
deriving DecidableEq, Repr

/-! ### The host's side of the port -/

/-- One write the HOST makes to the command port (R83, R84). -/
inductive HostWrite where
  /-- A whole command word. -/
  | word (w : Word)
  /-- A write of less than a word, which is no command (R84). -/
  | partialWord
deriving DecidableEq, Repr

/-! ### The state -/

structure State where
  /-- `RESP` (R32). -/
  resp : Word
  /-- `ERR` (R32). -/
  err : Bool
  /-- `F[1]..F[8]`, at indices 0..7 (R33). -/
  fde : Vector FdeModule 8
  /-- The Motor Phase Sequencer (R40). -/
  mps : Mps
  /-- The Debounce Unit (R55). -/
  dbu : Dbu
  /-- `PORT.HELD` (R60). -/
  held : Bool
  /-- `PRG.L[14:0]` (R62). -/
  prg : BitVec 15
  /-- The OPEN parameters of this block; no step writes them (R10; log 5). -/
  params : Params
  /-- The input pins at this turn (R9, R94; log 4). -/
  din : Half
  /-- The free-running counter at this turn (R9, R94; log 4). -/
  frc : Half
  /-- What the HOST will write to the port, oldest first (log 3). -/
  cmds : List HostWrite
  /-- The turns to come, oldest first; when there is none the turn is free (log 1). -/
  script : List Turn
  /-- How many turns were taken: the argument of the free turn (log 1). -/
  turns : Nat
deriving DecidableEq, Repr

/-! ### Why a step stops -/

/-- Faults. -/
inductive Fault where
  /-- Raised when the HOST's write is less than a word: "never as a command" (R84, I5). Safe: the model stops (log 6). -/
  | partialCommandWrite
deriving DecidableEq, Repr

/-- Refusals. -/
inductive Refusal where
  /-- Raised by an arm of exec whose command has no meaning yet; no arm does. Safe: the model stops. -/
  | notModelled (mnemonic : String)
deriving DecidableEq, Repr

/-! ### Reset (R340) -/

/-- An FDE record at reset (R39). -/
def FdeModule.reset : FdeModule :=
  { samples := Vector.replicate 21 0#16
    grads := Vector.replicate 20 .zero
    idle := 0#8
    log0 := ⟨0#16, 0#8⟩
    log1 := ⟨0#16, 0#8⟩
    result := 0#16 }

/-- The MPS at reset (R54). -/
def Mps.reset : Mps :=
  { mode := .stop, prev := .stop, phase := 0#3, steps := 0#16, thresh := 0#16, done := false, ival := .off
    oe := false, cdown := 0#16 }

/-- The DBU at reset (R61). -/
def Dbu.reset : Dbu :=
  { own := .free, dbt := 0#16, spin := 0#4, nextAt := 0#16, sstat := .idle, bpin := 0#4 }

/-- The machine right after reset (R340). The fields after `prg` are the model's own (logs 1, 3, 4, 5). -/
def State.reset : State :=
  { resp := 0#32
    err := false
    fde := Vector.replicate 8 FdeModule.reset
    mps := Mps.reset
    dbu := Dbu.reset
    held := false
    prg := 0#15
    params := Config.params
    din := 0#16
    frc := 0#16
    cmds := []
    script := []
    turns := 0 }

end Sys2Proof.Machine
end

