-- ==== Sys2Proof/Machine/Ops.lean ====
section
/-! DEFINITION. The named operations over the registers: the saturating and shifting primitives of 00_scope.md R12, one
write per register group, the response, the Illegal path (60_exceptions.md R311), sampling an input, and taking a turn. -/

namespace Sys2Proof.Machine

/-! ### Primitives (R11, R12) -/

/-- `sat_inc_w(v) = min(v + 1, 2^w - 1)`. -/
def satInc {w : Nat} (v : BitVec w) : BitVec w := BitVec.ofNat w (min (v.toNat + 1) (2 ^ w - 1))

/-- `min(u + v, 2^w - 1)`. -/
def satAdd {w : Nat} (u v : BitVec w) : BitVec w := BitVec.ofNat w (min (u.toNat + v.toNat) (2 ^ w - 1))

/-- `zext_32(v)`. -/
def zext {w : Nat} (v : BitVec w) : Word := v.setWidth 32

/-- `sgn(d)`. -/
def sgn (d : Int) : Sign := if 0 < d then .pos else if d = 0 then .zero else .neg

/-- The signed integer a gradient sign stands for. -/
def Sign.toInt : Sign → Int
  | .neg => -1
  | .zero => 0
  | .pos => 1

/-- Shift a ring indexed by age: every element grows one older, the oldest is lost, `x` becomes the newest (R34). -/
def shiftIn {α : Type} {n : Nat} (x : α) (v : Vector α n) : Vector α n :=
  Vector.ofFn fun i => if i.val = 0 then x else v[i.val - 1]

namespace State

/-! ### One write per register group -/

/-- `RESP <- v`: the response word of the current command (R12, R32). -/
def respond (v : Word) (s : State) : State := { s with resp := v }

/-- Write `ERR`. -/
def setErr (v : Bool) (s : State) : State := { s with err := v }

/-- Write one FDE record. -/
def setModule (k : Fin 8) (f : FdeModule) (s : State) : State := { s with fde := s.fde.set k f }

/-- Write the MPS registers. -/
def setMps (m : Mps) (s : State) : State := { s with mps := m }

/-- Write the DBU registers. -/
def setDbu (d : Dbu) (s : State) : State := { s with dbu := d }

/-- Write `PORT.HELD`. -/
def setHeld (v : Bool) (s : State) : State := { s with held := v }

/-- Write `PRG.L`. -/
def setPrg (l : BitVec 15) (s : State) : State := { s with prg := l }

/-! ### The Illegal path and its way back -/

/-- The response to an illegal command (R116). -/
def illegalResponse : Word := 0x80000001#32

/-- `raise Illegal()`: ERR set, the error response, "no other state changes" (R311). The one exception of the block. -/
def raiseIllegal (s : State) : State := (s.setErr true).respond illegalResponse

/-- The way back from an error: clear the sticky flag (R302). Nothing was saved, so nothing is restored (R317). -/
def clearError (s : State) : State := s.setErr false

/-! ### Inputs and turns -/

/-- `sample(p)`: pin p at this instant (R12, R94). -/
def sample (p : BitVec 4) (s : State) : Bool := s.din.getLsbD p.toNat

/-- The turn that comes next: the head of the script, or a free turn when nothing is scripted (R88; log 1). -/
def nextTurn (s : State) : Turn :=
  match s.script with
  | t :: _ => t
  | [] => Config.freeTurn s.turns

/-- Take a turn: it leaves the script, is counted, and the inputs read what it says (R94; logs 1, 4). -/
def takeTurn (s : State) : State :=
  { s with script := s.script.tail, turns := s.turns + 1, din := s.nextTurn.din, frc := s.nextTurn.frc }

/-- The HOST's oldest write leaves the queue (log 3). -/
def dropWrite (s : State) : State := { s with cmds := s.cmds.tail }

/-- The external reset: "every piece of PBSB state to its reset value in one step" (R340). The parameters, the inputs and
what is still to come from outside are not PBSB state and stay (log 10). -/
def externalReset (s : State) : State :=
  { State.reset with
    params := s.params, din := s.din, frc := s.frc, cmds := s.cmds, script := s.script, turns := s.turns }

end State

end Sys2Proof.Machine
end

