-- ==== Sys2Proof/Machine/Operands.lean ====
section
/-! DEFINITION. What an operand field selects: the module id, the mode code and its per-motor drive, the register codes
that a response packs, and the half-step table (10_state.md R41, R42, R48, R51, R55; 20_memory.md R81). -/

namespace Sys2Proof.Machine

/-! ### Module ids (R81, R141) -/

/-- The record a module id selects: ids 1..8 are `F[1]..F[8]`, at indices 0..7; 0 and 9..15 select nothing (R81). -/
def moduleIndex (mod : BitVec 4) : Option (Fin 8) :=
  if h : 1 ≤ mod.toNat ∧ mod.toNat ≤ 8 then some ⟨mod.toNat - 1, by omega⟩ else none

/-- Rotation modules are ids 7..8, indices 6..7; the others are collision modules (R141). -/
def isRotation (k : Fin 8) : Bool := decide (6 ≤ k.val)

/-! ### Codes (R41, R48, R55) -/

/-- The mode code (R41). -/
def Mode.code : Mode → BitVec 4
  | .stop => 0 | .fwd => 1 | .rev => 2 | .pivotCw => 3 | .pivotCcw => 4
  | .turnFr => 5 | .turnFl => 6 | .turnBr => 7 | .turnBl => 8

/-- The mode a code names; "codes 9..15 are not modes" (R41). -/
def Mode.ofCode (c : BitVec 4) : Option Mode :=
  [Mode.stop, .fwd, .rev, .pivotCw, .pivotCcw, .turnFr, .turnFl, .turnBr, .turnBl][c.toNat]?

/-- The interval class code (R48). -/
def Interval.code : Interval → BitVec 2
  | .off => 0 | .slow => 1 | .fast => 2

/-- The owner code (R55). -/
def Owner.code : Owner → BitVec 2
  | .free => 0 | .blocking => 1 | .session => 2

/-- The session status code (R57). -/
def SessionStatus.code : SessionStatus → BitVec 2
  | .idle => 0 | .running => 1 | .succeeded => 2 | .failed => 3

/-! ### Motor drive (R42, R51) -/

/-- What a mode asks of one motor: off, or on with a direction sign (R42). -/
inductive Drive where
  | off | plus | minus
deriving DecidableEq, Repr

/-- The enable and sign of motors 1 and 2 in each mode (R42). -/
def Mode.drives : Mode → Drive × Drive
  | .stop => (.off, .off)
  | .fwd => (.plus, .plus)
  | .rev => (.minus, .minus)
  | .pivotCw => (.plus, .minus)
  | .pivotCcw => (.minus, .plus)
  | .turnFr => (.plus, .off)
  | .turnFl => (.off, .plus)
  | .turnBr => (.minus, .off)
  | .turnBl => (.off, .minus)

/-- One row of the half-step table (R51). -/
structure HalfStep where
  cla : Bool
  clb : Bool
  pha : Bool
  phb : Bool
deriving DecidableEq, Repr

/-- The half-step table (R51). -/
def halfStep (phase : BitVec 3) : HalfStep :=
  match phase.toNat with
  | 0 => ⟨false, true, true, false⟩
  | 1 => ⟨false, false, true, true⟩
  | 2 => ⟨true, false, false, true⟩
  | 3 => ⟨false, false, false, true⟩
  | 4 => ⟨false, true, false, false⟩
  | 5 => ⟨false, false, false, false⟩
  | 6 => ⟨true, false, false, false⟩
  | _ => ⟨false, false, true, false⟩

end Sys2Proof.Machine
end

