-- ==== Sys2Proof/Machine/Flags.lean ====
section
/-! DEFINITION. The block's flags and the words that pack them: the FDE conditions (40_fde.md R143 to R150), the motor
outputs (10_state.md R52) and the two status words (30_encoding.md R115). There are no condition codes (R65). -/

namespace Sys2Proof.Machine

/-! ### FDE conditions -/

/-- The sum of the ten gradient signs from age `lo` on. -/
def gradSum (lo : Nat) (g : Vector Sign 20) : Int := (((g.toList.drop lo).take 10).map Sign.toInt).sum

/-- `L = G[10] + ... + G[19]` (R144). -/
def olderSum (g : Vector Sign 20) : Int := gradSum 10 g

/-- `R = G[0] + ... + G[9]` (R144). -/
def newerSum (g : Vector Sign 20) : Int := gradSum 0 g

/-- A clear sign reversal: `(L > 5 and R < -5) or (L < -5 and R > 5)` (R146). -/
def reversal (l r : Int) : Bool :=
  decide ((l > Config.sumThr ∧ r < -Config.sumThr) ∨ (l < -Config.sumThr ∧ r > Config.sumThr))

/-- The confirmation test on a record whose push is done: the refractory gate and the reversal (R143, R146). -/
def FdeModule.confirmed (f : FdeModule) : Bool :=
  decide (f.idle.toNat > Config.refract) && reversal (olderSum f.grads) (newerSum f.grads)

/-- A logged age inside the half-period window (R149). -/
def LogSlot.inWindow (l : LogSlot) : Bool :=
  decide (Config.ageMin ≤ l.age.toNat ∧ l.age.toNat ≤ Config.ageMax)

/-- `abs(a - b)` of two levels (R149). -/
def levelDiff (a b : Half) : Half := BitVec.ofNat 16 ((a.toNat : Int) - (b.toNat : Int)).natAbs

/-- The collision result of a log (R149). -/
def collisionResult (log0 log1 : LogSlot) : Half :=
  if log0.inWindow && log1.inWindow then levelDiff log0.level log1.level else 0#16

/-- The timeout condition of an update whose IDLE is written: `IDLE >= 42 and (m in {1..6} or MPS.STEPS > 300)` (R150). -/
def timeoutDue (rotation : Bool) (steps : Half) (idle : BitVec 8) : Bool :=
  decide (idle.toNat ≥ Config.timeout) && (!rotation || decide (steps.toNat > Config.rotSuppress))

/-! ### Motor outputs (R52) -/

/-- The phase outputs (PHA, PHB) of one motor (R52). -/
def Drive.outputs (h : HalfStep) : Drive → Bool × Bool
  | .off => (false, false)
  | .plus => (h.pha, if h.clb then false else h.phb)
  | .minus => (h.pha, if h.clb then false else !h.phb)

/-- `mout[5:0]` from the mode and the phase (R52). -/
def latches (mode : Mode) (phase : BitVec 3) : BitVec 6 :=
  match mode with
  | .stop => 0b000011#6
  | m =>
    let h := halfStep phase
    let (pha1, phb1) := m.drives.1.outputs h
    let (pha2, phb2) := m.drives.2.outputs h
    BitVec.ofBool phb2 ++ BitVec.ofBool pha2 ++ BitVec.ofBool phb1 ++ BitVec.ofBool pha1 ++
      BitVec.ofBool h.clb ++ BitVec.ofBool h.cla

/-- The motor outputs `mout[6:0]`, a function of MODE, PHASE and OE (R52). -/
def Mps.mout (m : Mps) : BitVec 7 := BitVec.ofBool m.oe ++ latches m.mode m.phase

/-! ### Status words (R115) -/

/-- MOT_RD sel 2: `{OE[14], IVAL[13:12], DONE[11], PHASE[10:8], PREV[7:4], MODE[3:0]}`. -/
def Mps.statusWord (m : Mps) : Word :=
  0#17 ++ BitVec.ofBool m.oe ++ m.ival.code ++ BitVec.ofBool m.done ++ m.phase ++ m.prev.code ++ m.mode.code

/-- DB_STAT sel 0: `{BPIN[15:12], SPIN[11:8], OWN[5:4], SSTAT[1:0]}`. -/
def Dbu.statusWord (d : Dbu) : Word :=
  0#16 ++ d.bpin ++ d.spin ++ 0#2 ++ d.own.code ++ 0#2 ++ d.sstat.code

end Sys2Proof.Machine
end

