-- ==== Sys2Proof/Machine/Block.lean ====
section
/-! DEFINITION. The block-level commands NOP, STATUS and CLRERR (44_system.md). -/

namespace Sys2Proof.Machine

/-- NOP: `RESP <- 0` (R300). -/
def execNop (s : State) : Host.Outcome State Fault Refusal := .next (s.respond 0#32)

/-- STATUS: `RESP <- zext_32(ERR)` (R301). -/
def execStatus (s : State) : Host.Outcome State Fault Refusal := .next (s.respond (zext (BitVec.ofBool s.err)))

/-- CLRERR: `ERR <- 0; RESP <- 0` (R302). -/
def execClrerr (s : State) : Host.Outcome State Fault Refusal := .next (s.clearError.respond 0#32)

end Sys2Proof.Machine
end

