-- ==== Sys2Proof/Machine/Debounce.lean ====
section
/-! DEFINITION. The Debounce Unit: DB_BLK, DB_START, DB_ADV, DB_STAT, DB_CLR and the debounce tick (41_debounce.md). -/

namespace Sys2Proof.Machine

/-! ### The blocking mode -/

/-- Acquire the timer for a blocking call: "OWN <- BLOCKING; DBT <- 0; BPIN <- p" (R183). -/
def Dbu.acquireBlocking (p : BitVec 4) (d : Dbu) : Dbu := { d with own := .blocking, dbt := 0#16, bpin := p }

/-- Give the timer back; DBT keeps its value (R58). -/
def Dbu.release (d : Dbu) : Dbu := { d with own := .free }

/-- Complete a blocking call with a value (R190). -/
def State.completeBlocking (v : Word) (s : State) : State :=
  ((s.setDbu s.dbu.release).setHeld false).respond v

/-- DB_BLK: rejected when the timer is owned; an already low pin answers 0 at once; a high pin holds the port, and RESP
is written when the call completes (R182, R183; log 13). -/
def execDbBlk (pin : BitVec 4) (s : State) : Host.Outcome State Fault Refusal :=
  .next (if s.dbu.own = .free then
    let acquired := s.setDbu (s.dbu.acquireBlocking pin)
    if s.sample pin then acquired.setHeld true
    else (acquired.setDbu acquired.dbu.release).respond 0#32
  else s.respond 0#32)

/-! ### The session -/

/-- Start a session on a pin (R184). -/
def Dbu.startSession (nbInc : Half) (p : BitVec 4) (d : Dbu) : Dbu :=
  { d with own := .session, dbt := 0#16, spin := p, nextAt := nbInc, sstat := .running }

/-- DB_START: rejected when the timer is owned (R182, R184). -/
def execDbStart (pin : BitVec 4) (s : State) : Host.Outcome State Fault Refusal :=
  .next (if s.dbu.own = .free then (s.setDbu (s.dbu.startSession s.params.nbInc pin)).respond 1#32
  else s.respond 0#32)

/-- End a session with a status and release the timer (R185). -/
def Dbu.finish (st : SessionStatus) (d : Dbu) : Dbu := { d with sstat := st, own := .free }

/-- The window test of an advance: "DBT >= NB_WINDOW" ends the session in SUCCEEDED (R185). -/
def Dbu.windowTest (nbWindow : Half) (d : Dbu) : Dbu :=
  if nbWindow.toNat ≤ d.dbt.toNat then d.finish .succeeded else d

/-- One advance of the session with the pin level of this instant: at most one sample, a low one fails at once, and the
low sample wins over the window test (R185, R316). DESIGN CHOICE (log 18): where NB_INC does not divide NB_WINDOW, R185's
pseudocode ends the session at NB_WINDOW after floor(NB_WINDOW / NB_INC) samples, and R188's derived "ceil(NB_WINDOW /
NB_INC) or more" does not hold; the model follows R185. -/
def Dbu.advance (p : Params) (level : Bool) (d : Dbu) : Dbu :=
  if d.sstat = .running then
    if d.nextAt.toNat ≤ d.dbt.toNat then
      if level then ({ d with nextAt := satAdd d.nextAt p.nbInc } : Dbu).windowTest p.nbWindow
      else d.finish .failed
    else d.windowTest p.nbWindow
  else d

/-- DB_ADV: `RESP <- zext_32(DBU.SSTAT)` after the advance (R185). -/
def execDbAdv (s : State) : Host.Outcome State Fault Refusal :=
  let d := s.dbu.advance s.params (s.sample s.dbu.spin)
  .next ((s.setDbu d).respond (zext d.sstat.code))

/-! ### Status -/

/-- The word a DB_STAT selector names (R186). -/
def Dbu.read (sel : BitVec 4) (d : Dbu) : Word :=
  match sel.toNat with
  | 0 => d.statusWord
  | 1 => zext d.dbt
  | _ => zext d.nextAt

/-- DB_STAT (R186). -/
def execDbStat (sel : BitVec 4) (s : State) : Host.Outcome State Fault Refusal :=
  .next (if dbSelLegal sel then s.respond (s.dbu.read sel) else s.raiseIllegal)

/-- Drop a finished session; a running one is not cancelled (R187). -/
def Dbu.clear (d : Dbu) : Dbu :=
  if d.sstat = .succeeded ∨ d.sstat = .failed then { d with sstat := .idle } else d

/-- DB_CLR (R187). -/
def execDbClr (s : State) : Host.Outcome State Fault Refusal :=
  .next ((s.setDbu s.dbu.clear).respond (zext s.dbu.clear.sstat.code))

/-! ### The debounce tick -/

/-- The timer counts: "DBT <- sat_inc_16(DBT)" (R189). -/
def Dbu.count (d : Dbu) : Dbu := { d with dbt := satInc d.dbt }

/-- One debounce tick: a low sample of a blocking call wins over the window test; a session only counts (R189, R316). -/
def State.debounceTick (s : State) : State :=
  let c := s.setDbu s.dbu.count
  if c.dbu.own = .blocking then
    if c.sample c.dbu.bpin then
      if c.params.blkWindow.toNat ≤ c.dbu.dbt.toNat then c.completeBlocking 1#32 else c
    else c.completeBlocking 0#32
  else c

/-- DBTIMER's turn: "While the timer is free, DBTIMER has no step" (R189; log 2). -/
def State.debounceTurn (s : State) : State :=
  if s.dbu.own = .free then s else s.debounceTick

end Sys2Proof.Machine
end

