-- ==== Sys2Proof/Machine/Fde.lean ====
section
/-! DEFINITION. The Frequency-Detection Engine commands FDE_UPD and FDE_RD (40_fde.md). -/

namespace Sys2Proof.Machine

/-! ### The steps of an update (R142 to R150) -/

/-- Push a raw sample: its gradient sign against its predecessor, newer minus older, and both rings shifted (R142). -/
def FdeModule.push (x : Half) (f : FdeModule) : FdeModule :=
  { f with
    samples := shiftIn x f.samples
    grads := shiftIn (sgn ((x.toNat : Int) - (f.samples[0].toNat : Int))) f.grads }

/-- Log and idle update, with the level of the midpoint and IDLE before the increment (R147). -/
def FdeModule.logIdle (confirmed : Bool) (f : FdeModule) : FdeModule :=
  if confirmed then { f with log0 := f.log1, log1 := ⟨f.samples[10], f.idle⟩, idle := 0#8 }
  else { f with idle := satInc f.idle }

/-- The result of a rotation module (R148) or of a collision module (R149). -/
def FdeModule.assess (rotation confirmed : Bool) (f : FdeModule) : FdeModule :=
  if rotation then
    if confirmed then { f with result := 1#16 } else f
  else { f with result := collisionResult f.log0 f.log1 }

/-- The timeout: both log slots and the result cleared, IDLE kept (R150). -/
def FdeModule.expire (rotation : Bool) (steps : Half) (f : FdeModule) : FdeModule :=
  if timeoutDue rotation steps f.idle then { f with log0 := ⟨0#16, 0#8⟩, log1 := ⟨0#16, 0#8⟩, result := 0#16 } else f

/-- One update of a record: push, test, log and idle, result, timeout, in the order of R151. -/
def FdeModule.update (rotation : Bool) (steps x : Half) (f : FdeModule) : FdeModule :=
  let pushed := f.push x
  ((pushed.logIdle pushed.confirmed).assess rotation pushed.confirmed).expire rotation steps

/-! ### The commands -/

/-- FDE_UPD: update one module with one raw sample; an unrecognized module id is a no-op that responds 0 (R151). -/
def execFdeUpd (mod : BitVec 4) (sample : Half) (s : State) : Host.Outcome State Fault Refusal :=
  .next (match moduleIndex mod with
    | none => s.respond 0#32
    | some k =>
      let f := s.fde[k].update (isRotation k) s.mps.steps sample
      (s.setModule k f).respond (zext f.result))

/-- The field of a record that an FDE_RD selector names (R152). -/
def FdeModule.read (sel : BitVec 4) (f : FdeModule) : Word :=
  match sel.toNat with
  | 0 => zext f.result
  | 1 => zext f.idle
  | 2 => zext f.log0.level
  | 3 => zext f.log0.age
  | 4 => zext f.log1.level
  | 5 => zext f.log1.age
  | _ => zext f.samples[10]

/-- FDE_RD: read one field of one module; the selector is checked before the module id (R152). -/
def execFdeRd (mod sel : BitVec 4) (s : State) : Host.Outcome State Fault Refusal :=
  .next (if fdeSelLegal sel then
    match moduleIndex mod with
    | none => s.respond 0#32
    | some k => s.respond (s.fde[k].read sel)
  else s.raiseIllegal)

end Sys2Proof.Machine
end

