-- ==== Sys2Proof/Machine/Motor.lean ====
section
/-! DEFINITION. The Motor Phase Sequencer: MOT_MOVE, MOT_STOP, MOT_RD and the motor tick (42_motor.md). -/

namespace Sys2Proof.Machine

/-! ### Commands -/

/-- Configure and start a maneuver; PHASE is unchanged (R222). -/
def Mps.move (softstart : Half) (mode : Mode) (deferred : Bool) (thresh : Half) (m : Mps) : Mps :=
  { m with
    prev := m.mode
    mode := mode
    thresh := thresh
    steps := 0#16
    done := false
    cdown := if deferred then softstart else 0#16
    ival := if deferred then .slow else .fast
    oe := !deferred }

/-- MOT_MOVE: a mode of 0 or above 8 is illegal (R112, R222). -/
def execMotMove (mode : BitVec 4) (deferred : Bool) (thresh : Half) (s : State) : Host.Outcome State Fault Refusal :=
  .next (if modeLegal mode then
    match Mode.ofCode mode with
    | some md => (s.setMps (s.mps.move s.params.softstart md deferred thresh)).respond 0#32
    | none => s.raiseIllegal
  else s.raiseIllegal)

/-- Stop at once; STEPS, THRESH, DONE and PHASE are unchanged (R223). -/
def Mps.halt (m : Mps) : Mps :=
  { m with prev := m.mode, mode := .stop, ival := .off, oe := false, cdown := 0#16 }

/-- MOT_STOP (R223). -/
def execMotStop (s : State) : Host.Outcome State Fault Refusal := .next ((s.setMps s.mps.halt).respond 0#32)

/-- The word a MOT_RD selector names (R224). -/
def Mps.read (sel : BitVec 4) (m : Mps) : Word :=
  match sel.toNat with
  | 0 => zext m.steps
  | 1 => zext m.thresh
  | 2 => m.statusWord
  | 3 => zext m.mout
  | _ => zext m.cdown

/-- MOT_RD (R224). -/
def execMotRd (sel : BitVec 4) (s : State) : Host.Outcome State Fault Refusal :=
  .next (if motSelLegal sel then s.respond (s.mps.read sel) else s.raiseIllegal)

/-! ### The motor tick -/

/-- Forced stop at the threshold: PREV, STEPS and PHASE are not written (R237). -/
def Mps.forcedStop (m : Mps) : Mps :=
  { m with mode := .stop, ival := .off, oe := false, cdown := 0#16, done := true }

/-- One slow tick of the countdown; reaching 0 switches to FAST and enables the output stage (R238). -/
def Mps.countDown (m : Mps) : Mps :=
  let c := m.cdown - 1#16
  if c = 0#16 then { m with cdown := c, ival := .fast, oe := true } else { m with cdown := c }

/-- PHASE and STEPS of the next tick: PHASE mod 8, STEPS saturating (R236). -/
def Mps.advance (m : Mps) : Mps := { m with phase := m.phase + 1#3, steps := satInc m.steps }

/-- One motor tick: the threshold test comes before the countdown (R236, R316). -/
def Mps.tick (m : Mps) : Mps :=
  let a := m.advance
  if a.steps = a.thresh then a.forcedStop
  else if a.cdown ≠ 0#16 then a.countDown
  else a

/-- MTIMER's turn: it "has a step only while `MPS.IVAL != OFF`" (R227, R236; log 2). -/
def State.motorTurn (s : State) : State :=
  if s.mps.ival = .off then s else s.setMps s.mps.tick

end Sys2Proof.Machine
end

