-- ==== Sys2Proof/Machine/Prbs.lean ====
section
/-! DEFINITION. The PRBS Generator commands PRBS_GEN, PRBS_SEED and PRBS_RD (43_prbs.md). -/

namespace Sys2Proof.Machine

/-- One generation step: `b = L[14] XOR L[13]; L <- {L[13:0], b}` (R271). -/
def genBit (l : BitVec 15) : BitVec 15 :=
  l.extractLsb' 0 14 ++ BitVec.ofBool (l.getLsbD 14 ^^ l.getLsbD 13)

/-- `repeat n times: gen_bit()` (R274). -/
def genBits : Nat → BitVec 15 → BitVec 15
  | 0, l => l
  | n + 1, l => genBits n (genBit l)

/-- Self-seeding: a zero register is reseeded from `frc[14:0]`, or from the fallback when that is zero too (R272). -/
def reseed (fallback : BitVec 15) (frc : Half) (l : BitVec 15) : BitVec 15 :=
  if l = 0#15 then
    let seed := frc.extractLsb' 0 15
    if seed = 0#15 then fallback else seed
  else l

/-- The number of fresh bits of a request: `[1, 3, 15, 15][k]` (R273, R274). -/
def freshBits (kind : BitVec 2) : Nat :=
  match kind.toNat with
  | 0 => 1
  | 1 => 3
  | _ => 15

/-- The bit number of TIME_FLOOR_BIT (R10, D13). -/
def timeFloorBit : TimeFloor → Nat
  | .bit11 => 11
  | .bit12 => 12

/-- The degree value: `v = L[8:0]`, floored by 0x0C0 when v[8] = 0 (R273, D39). -/
def degreeValue (l : BitVec 15) : BitVec 9 :=
  let v := l.extractLsb' 0 9
  if v.getLsbD 8 then v else v ||| 0x0C0#9

/-- The time value: `v = L[12:0]`, floored by 0x600 when v[TIME_FLOOR_BIT] = 0 (R273, D13). -/
def timeValue (floor : TimeFloor) (l : BitVec 15) : BitVec 13 :=
  let v := l.extractLsb' 0 13
  if v.getLsbD (timeFloorBit floor) then v else v ||| 0x600#13

/-- The value of a request from the register after its steps (R273, R274, R275). -/
def prbsValue (floor : TimeFloor) (kind : BitVec 2) (l : BitVec 15) : Word :=
  match kind.toNat with
  | 0 => zext (l.extractLsb' 0 1)
  | 1 => zext (l.extractLsb' 0 2)
  | 2 => zext (degreeValue l)
  | _ => zext (timeValue floor l)

/-- PRBS_GEN: reseed if zero, step, respond; the floors never change L (R274). -/
def execPrbsGen (kind : BitVec 2) (s : State) : Host.Outcome State Fault Refusal :=
  let l := genBits (freshBits kind) (reseed s.params.fallback s.frc s.prg)
  .next ((s.setPrg l).respond (prbsValue s.params.timeFloor kind l))

/-- PRBS_SEED: load the register from firmware; seed 0 is legal (R276). -/
def execPrbsSeed (seed : BitVec 15) (s : State) : Host.Outcome State Fault Refusal :=
  .next ((s.setPrg seed).respond 0#32)

/-- PRBS_RD: read the register; no reseed, no step (R277). -/
def execPrbsRd (s : State) : Host.Outcome State Fault Refusal := .next (s.respond (zext s.prg))

end Sys2Proof.Machine
end

