-- ==== Sys2Proof/Machine/Dispatch.lean ====
section
/-! DEFINITION. The meaning of each command: one arm per constructor of Instr, one call each (30_encoding.md R105). -/

namespace Sys2Proof.Machine

def exec (i : Instr) (s : State) : Host.Outcome State Fault Refusal :=
  match i with
  | .nop => Sys2Proof.Machine.execNop s
  | .status => Sys2Proof.Machine.execStatus s
  | .clrerr => Sys2Proof.Machine.execClrerr s
  | .fdeUpd mod sample => Sys2Proof.Machine.execFdeUpd mod sample s
  | .fdeRd mod sel => Sys2Proof.Machine.execFdeRd mod sel s
  | .motMove mode deferred thresh => Sys2Proof.Machine.execMotMove mode deferred thresh s
  | .motStop => Sys2Proof.Machine.execMotStop s
  | .motRd sel => Sys2Proof.Machine.execMotRd sel s
  | .dbBlk pin => Sys2Proof.Machine.execDbBlk pin s
  | .dbStart pin => Sys2Proof.Machine.execDbStart pin s
  | .dbAdv => Sys2Proof.Machine.execDbAdv s
  | .dbStat sel => Sys2Proof.Machine.execDbStat sel s
  | .dbClr => Sys2Proof.Machine.execDbClr s
  | .prbsGen kind => Sys2Proof.Machine.execPrbsGen kind s
  | .prbsSeed seed => Sys2Proof.Machine.execPrbsSeed seed s
  | .prbsRd => Sys2Proof.Machine.execPrbsRd s

end Sys2Proof.Machine
end

