-- ==== Sys2Proof/Machine/Agents.lean ====
section
/-! DEFINITION. What each agent does on its turn (00_scope.md R7): the HOST's transaction on the command port
(30_encoding.md R100), the two ticks, the environment and the external reset. -/

namespace Sys2Proof.Machine

/-- A whole command word on the port: the command it decodes to runs; a word that is none takes the Illegal path
(R100, R106, R311). -/
def State.issue (w : Word) (s : State) : Host.Outcome State Fault Refusal :=
  match decode w with
  | .ok i => exec i s
  | .error _ => .next s.raiseIllegal

/-- The HOST's turn: while the port is held, and while it has nothing to write, it has no step (R60, R100; logs 2, 3); a
partial write is stuck (R84; log 6); a word is issued. -/
def State.hostTurn (s : State) : Host.Outcome State Fault Refusal :=
  if s.held then .next s
  else
    match s.cmds with
    | [] => .next s
    | .partialWord :: _ => .fault .partialCommandWrite
    | .word w :: _ => s.dropWrite.issue w

/-- One agent's move (R7, R340). ENV only changes the inputs, which the turn itself brings (log 4). -/
def State.act (a : Agent) (s : State) : Host.Outcome State Fault Refusal :=
  match a with
  | .host => s.hostTurn
  | .mtimer => .next s.motorTurn
  | .dbtimer => .next s.debounceTurn
  | .env => .next s
  | .resetLine => .next s.externalReset

/-- Bring one command word to the port so that the very next turn issues it: the HOST's turn next, at the inputs' present
levels, the word at the head of the HOST's queue, and the port not held (log 3). -/
def State.presentWord (w : Word) (s : State) : State :=
  { s with
    held := false
    cmds := .word w :: s.cmds
    script := ⟨.host, s.din, s.frc⟩ :: s.script }

end Sys2Proof.Machine
end

