-- ==== Sys2Proof/Machine/Step.lean ====
section
/-! DEFINITION. One step of the machine: one agent takes one turn (00_scope.md R7, 20_memory.md R88). -/

namespace Sys2Proof.Machine

/-- One atomic step of the total order (R87, R88): the turn is taken, then its agent moves. -/
def step (s : State) : Host.Outcome State Fault Refusal := s.takeTurn.act s.nextTurn.agent

/-- The state in which the very next step issues the table's word (log 3). -/
def State.withFetchWord (s : State) (nbits w : Nat) : State := s.presentWord (tableWord nbits w)

end Sys2Proof.Machine
end

