-- ==== Sys2Proof/Machine/Assembler.lean ====
section
/-! DEFINITION. The assembly syntax and the pseudo-instructions (30_encoding.md R117, R118; log 17). Text is a list of
characters. The words come from `encode`. -/

namespace Sys2Proof.Machine

/-- Why a line does not assemble (R117). -/
inductive AsmError where
  /-- The mnemonic is not one of R117 or R118. -/
  | unknownMnemonic
  /-- The wrong number of operands. -/
  | operandCount
  /-- An operand that is neither a number nor a symbol of its place. -/
  | badOperand
  /-- "An operand out of its range is an assembly error." -/
  | outOfRange
deriving DecidableEq, Repr

/-! ### Text -/

def isBlank (c : Char) : Bool := c == ' ' || c == '\t' || c == '\r'

/-- "A `;` starts a comment." -/
def stripComment (cs : List Char) : List Char := cs.takeWhile fun c => c != ';'

def trimBlanks (cs : List Char) : List Char := ((cs.dropWhile isBlank).reverse.dropWhile isBlank).reverse

/-- The pieces between separators, always at least one. -/
def splitText (sep : Char) : List Char → List (List Char)
  | [] => [[]]
  | c :: cs =>
    if c == sep then [] :: splitText sep cs
    else
      match splitText sep cs with
      | [] => [[c]]
      | w :: ws => (c :: w) :: ws

/-- The value of a digit in a base. -/
def digitValue (base : Nat) (c : Char) : Option Nat :=
  let v :=
    if '0' ≤ c ∧ c ≤ '9' then c.toNat - '0'.toNat
    else if 'a' ≤ c ∧ c ≤ 'f' then c.toNat - 'a'.toNat + 10
    else if 'A' ≤ c ∧ c ≤ 'F' then c.toNat - 'A'.toNat + 10
    else base
  if v < base then some v else none

/-- The digits of a number, most significant first, after `acc`. -/
def digitsValue (base acc : Nat) : List Char → Option Nat
  | [] => some acc
  | c :: cs =>
    match digitValue base c with
    | none => none
    | some d => digitsValue base (acc * base + d) cs

/-- "Numbers are decimal, `0x` hex or `0b` binary." -/
def numberOf : List Char → Option Nat
  | '0' :: 'x' :: d :: ds => digitsValue 16 0 (d :: ds)
  | '0' :: 'b' :: d :: ds => digitsValue 2 0 (d :: ds)
  | d :: ds => digitsValue 10 0 (d :: ds)
  | [] => none

/-! ### Operands (R117) -/

/-- A number or one of the place's symbols, within the place's range. -/
def operand (symbols : List (String × Nat)) (lo hi : Nat) (cs : List Char) : Except AsmError Nat :=
  match (symbols.find? fun p => p.1.toList == cs).map (fun p => p.2) <|> numberOf cs with
  | none => .error .badOperand
  | some v => if lo ≤ v ∧ v ≤ hi then .ok v else .error .outOfRange

def fdeSelSymbols : List (String × Nat) :=
  [("RESULT", 0), ("IDLE", 1), ("LOG0L", 2), ("LOG0A", 3), ("LOG1L", 4), ("LOG1A", 5), ("MID", 6)]

def modeSymbols : List (String × Nat) :=
  [("FWD", 1), ("REV", 2), ("PIVOT_CW", 3), ("PIVOT_CCW", 4), ("TURN_FR", 5), ("TURN_FL", 6), ("TURN_BR", 7),
   ("TURN_BL", 8)]

def motSelSymbols : List (String × Nat) := [("STEPS", 0), ("THRESH", 1), ("STAT", 2), ("OUT", 3), ("CDOWN", 4)]

def dbSelSymbols : List (String × Nat) := [("CTRL", 0), ("DBT", 1), ("NEXT", 2)]

def kindSymbols : List (String × Nat) := [("DIR", 0), ("MOVE", 1), ("DEG", 2), ("TIME", 3)]

/-! ### Lines -/

/-- A command with no operand. -/
def asmNone (i : Instr) : List (List Char) → Except AsmError Instr
  | [] => .ok i
  | _ => .error .operandCount

/-- A command with one operand. -/
def asmOne (symbols : List (String × Nat)) (lo hi : Nat) (i : Nat → Instr) : List (List Char) → Except AsmError Instr
  | [a] =>
    match operand symbols lo hi a with
    | .error e => .error e
    | .ok v => .ok (i v)
  | _ => .error .operandCount

/-- A command with two operands; the first may be symbolic, or the second. -/
def asmTwo (sym1 : List (String × Nat)) (lo1 hi1 : Nat) (sym2 : List (String × Nat)) (hi2 : Nat)
    (i : Nat → Nat → Instr) : List (List Char) → Except AsmError Instr
  | [a, b] =>
    match operand sym1 lo1 hi1 a, operand sym2 0 hi2 b with
    | .ok v, .ok w => .ok (i v w)
    | .error e, _ => .error e
    | _, .error e => .error e
  | _ => .error .operandCount

/-- The mnemonics of R117, then the pseudo-instructions of R118. DESIGN CHOICE (log 17): a mode operand may also be written
as its number, 1..8; R117 lists the names with "(1..8)" and, unlike its selector and kind rows, no range "or" names. -/
def mnemonics : List (String × (List (List Char) → Except AsmError Instr)) :=
  [("NOP", asmNone .nop), ("STATUS", asmNone .status), ("CLRERR", asmNone .clrerr),
   ("FDE_UPD", asmTwo [] 0 15 [] 65535 fun m s => .fdeUpd (.ofNat 4 m) (.ofNat 16 s)),
   ("FDE_RD", asmTwo [] 0 15 fdeSelSymbols 6 fun m e => .fdeRd (.ofNat 4 m) (.ofNat 4 e)),
   ("MOT_MOVE.I", asmTwo modeSymbols 1 8 [] 65535 fun m t => .motMove (.ofNat 4 m) false (.ofNat 16 t)),
   ("MOT_MOVE.D", asmTwo modeSymbols 1 8 [] 65535 fun m t => .motMove (.ofNat 4 m) true (.ofNat 16 t)),
   ("MOT_STOP", asmNone .motStop),
   ("MOT_RD", asmOne motSelSymbols 0 4 fun e => .motRd (.ofNat 4 e))] ++
  [("DB_BLK", asmOne [] 0 15 fun p => .dbBlk (.ofNat 4 p)),
   ("DB_START", asmOne [] 0 15 fun p => .dbStart (.ofNat 4 p)),
   ("DB_ADV", asmNone .dbAdv), ("DB_CLR", asmNone .dbClr),
   ("DB_STAT", asmOne dbSelSymbols 0 2 fun e => .dbStat (.ofNat 4 e)),
   ("PRBS_GEN", asmOne kindSymbols 0 3 fun k => .prbsGen (.ofNat 2 k)),
   ("PRBS_SEED", asmOne [] 0 0x7FFF fun v => .prbsSeed (.ofNat 15 v)),
   ("PRBS_RD", asmNone .prbsRd)] ++
  [("PRBS_DIR", asmNone (.prbsGen 0)), ("PRBS_MOVE", asmNone (.prbsGen 1)),
   ("PRBS_DEG", asmNone (.prbsGen 2)), ("PRBS_TIME", asmNone (.prbsGen 3)),
   ("MOT_STEPS", asmNone (.motRd 0)), ("MOT_STATUS", asmNone (.motRd 2)),
   ("MOT_FREE.I", asmOne modeSymbols 1 8 fun m => .motMove (.ofNat 4 m) false 0)]

/-- The operands after a mnemonic: none when the rest of the line is blank, else the comma-separated pieces. -/
def operandsOf (cs : List Char) : List (List Char) :=
  match trimBlanks cs with
  | [] => []
  | rest => (splitText ',' rest).map trimBlanks

/-- "One command per line: a mnemonic, then comma-separated operands." A blank line gives no command. -/
def assembleLine (line : List Char) : Except AsmError (Option Instr) :=
  match trimBlanks (stripComment line) with
  | [] => .ok none
  | cs =>
    let name := cs.takeWhile fun c => !isBlank c
    match mnemonics.find? fun p => p.1.toList == name with
    | none => .error .unknownMnemonic
    | some p =>
      match p.2 (operandsOf (cs.dropWhile fun c => !isBlank c)) with
      | .error e => .error e
      | .ok i => .ok (some i)

/-- The command words of some lines, in order; the first error ends the assembly. -/
def assembleLines : List (List Char) → Except AsmError (List Word)
  | [] => .ok []
  | l :: ls =>
    match assembleLine l, assembleLines ls with
    | .ok (some i), .ok ws => .ok (encode i :: ws)
    | .ok none, .ok ws => .ok ws
    | .error e, _ => .error e
    | _, .error e => .error e

/-- The command words of a text. -/
def assemble (text : List Char) : Except AsmError (List Word) := assembleLines (splitText '\n' text)

end Sys2Proof.Machine
end

