-- ==== Sys2Proof/Safety.lean ====
section
/-! DEFINITION. What claims call a safe run: the invariants the spec gives the block's registers, and a step that does
not stop. -/

namespace Sys2Proof.Machine

/-- The relations between registers that hold in every state a run reaches. -/
structure State.Inv (s : State) : Prop where
  /-- The OPEN parameters meet their constraints (R10). -/
  params : s.params.Legal
  /-- "`OWN = SESSION` exactly when `SSTAT = RUNNING`" (R56). -/
  session : s.dbu.own = .session ↔ s.dbu.sstat = .running
  /-- "`OWN = BLOCKING` exactly when the command port is held by a DB_BLK" (R56). -/
  blocking : s.dbu.own = .blocking ↔ s.held = true
  /-- A blocking call in progress has not reached its window (R189). -/
  window : s.dbu.own = .blocking → s.dbu.dbt.toNat < s.params.blkWindow.toNat
  /-- "`G[a] = sgn(S[a] - S[a+1])` holds for every a = 0..19" (R35). -/
  gradients : ∀ (k : Fin 8) (a : Fin 20),
    s.fde[k].grads[a.val] = sgn ((s.fde[k].samples[a.val].toNat : Int) - (s.fde[k].samples[a.val + 1].toNat : Int))
  /-- The collision RESULT "always reflects the current log" (R149, D31). -/
  collision : ∀ k : Fin 8, isRotation k = false → s.fde[k].result = collisionResult s.fde[k].log0 s.fde[k].log1
  /-- The rotation RESULT is 0 or 1 (R33, R38). -/
  rotation : ∀ k : Fin 8, isRotation k = true → s.fde[k].result = 0#16 ∨ s.fde[k].result = 1#16
  /-- The callback is OFF exactly in mode STOP (R222, R223, R237). -/
  stopped : s.mps.mode = .stop ↔ s.mps.ival = .off
  /-- The output stage is enabled exactly at the FAST interval (R49, D23). -/
  enabled : s.mps.oe = true ↔ s.mps.ival = .fast
  /-- The countdown is nonzero exactly at the SLOW interval (R50, R238). -/
  counting : s.mps.ival = .slow ↔ s.mps.cdown ≠ 0#16
  /-- "`MPS.CDOWN` ... 0..SOFTSTART_TICKS" (R40). -/
  countdown_le : s.mps.cdown.toNat ≤ s.params.softstart.toNat
  /-- A running maneuver has no threshold or has not reached it (R46, R237). -/
  threshold : s.mps.mode ≠ .stop → s.mps.thresh = 0#16 ∨ s.mps.steps.toNat < s.mps.thresh.toNat
  /-- A complete maneuver has stopped (R47, R237). -/
  complete : s.mps.done = true → s.mps.mode = .stop

/-- The machine goes on: the step gives a next state. -/
def State.GoesOn (s : State) : Prop := ∃ t, step s = .next t

/-- The HOST writes less than a word: the one write the block has no step for (R84). -/
def State.PartialWriteDue (s : State) : Prop :=
  s.nextTurn.agent = .host ∧ s.held = false ∧ ∃ rest, s.cmds = .partialWord :: rest

end Sys2Proof.Machine
end

