-- ==== Sys2Proof/WellFormed.lean ====
section
/-! DEFINITION. Which commands are legal: every field has a value that 30_encoding.md R105 allows. The reserved
selector and mode values are those of R110 to R113; every other field value is legal (R109). -/

namespace Sys2Proof

/-- Every field of the command has a legal value (R105). -/
def Instr.wellFormed : Instr → Bool
  | .nop | .status | .clrerr => true
  | .fdeUpd _ _ => true
  | .fdeRd _ sel => decide (sel.toNat ≤ 6)
  | .motMove mode _ _ => decide (1 ≤ mode.toNat ∧ mode.toNat ≤ 8)
  | .motStop => true
  | .motRd sel => decide (sel.toNat ≤ 4)
  | .dbBlk _ | .dbStart _ | .dbAdv => true
  | .dbStat sel => decide (sel.toNat ≤ 2)
  | .dbClr => true
  | .prbsGen _ | .prbsSeed _ | .prbsRd => true

/-- The command is legal. -/
abbrev WellFormed (i : Instr) : Prop := i.wellFormed = true

end Sys2Proof
end

