-- ==== Sys2Proof/Certificates/Slice0/Obligations.lean ====
section
/-! DEFINITION. The statements for the provers, and the words they are written in. Each docstring names the rules of
spec/ it formalises; "log n" is an assumption of the model that a clause rests on. -/

namespace Sys2Proof.Claims

open Sys2Proof.Machine

/-! ### The words of the statements -/

/-- What a step or a command answers. -/
abbrev Answer := Host.Outcome State Fault Refusal

/-- The module id of `F[k + 1]` (R81). -/
def idOf (k : Fin 8) : BitVec 4 := BitVec.ofNat 4 (k.val + 1)

/-- Some commands, one after another. -/
def runAll : List Instr → State → Answer
  | [], s => .next s
  | i :: is, s =>
    match exec i s with
    | .next t => runAll is t
    | .fault r => .fault r
    | .refused r => .refused r

/-- Some steps. -/
def runFor : Nat → State → Answer
  | 0, s => .next s
  | n + 1, s =>
    match step s with
    | .next t => runFor n t
    | .fault r => .fault r
    | .refused r => .refused r

/-- The state after an illegal command: ERR and RESP, nothing else (R311). -/
def illegal (s : State) : State := { s with err := true, resp := 0x80000001#32 }

/-- The state in which the next turn's agent moves: the turn has left the script and its inputs are read (logs 1, 4). -/
def atTurn (s : State) : State :=
  { s with script := s.script.tail, turns := s.turns + 1, din := s.nextTurn.din, frc := s.nextTurn.frc }

/-- The HOST's next move is to write this word (R60, R100). -/
def HostIssues (w : Word) (s : State) : Prop :=
  s.nextTurn.agent = .host ∧ s.held = false ∧ ∃ rest, s.cmds = .word w :: rest

/-- Every PBSB register at its reset value (R340). -/
def AtReset (t : State) : Prop :=
  t.resp = 0#32 ∧ t.err = false ∧
  (∀ k : Fin 8, (∀ a : Fin 21, t.fde[k].samples[a] = 0#16) ∧ (∀ a : Fin 20, t.fde[k].grads[a] = .zero) ∧
    t.fde[k].idle = 0#8 ∧ t.fde[k].log0 = ⟨0#16, 0#8⟩ ∧ t.fde[k].log1 = ⟨0#16, 0#8⟩ ∧ t.fde[k].result = 0#16) ∧
  t.mps = { mode := .stop, prev := .stop, phase := 0#3, steps := 0#16, thresh := 0#16, done := false, ival := .off,
            oe := false, cdown := 0#16 } ∧
  t.mps.mout = 0b0000011#7 ∧
  t.dbu = { own := .free, dbt := 0#16, spin := 0#4, nextAt := 0#16, sstat := .idle, bpin := 0#4 } ∧
  t.held = false ∧ t.prg = 0#15

/-- `L`: the sum of the ten gradient signs strictly older than the midpoint (R144). -/
def older (g : Vector Sign 20) : Int := ∑ a : Fin 10, (g[10 + a.val]).toInt

/-- `R`: the sum of the ten gradient signs at or newer than the midpoint (R144). -/
def newer (g : Vector Sign 20) : Int := ∑ a : Fin 10, (g[a.val]).toInt

/-- The confirmation test: IDLE before the update, the sums after its push (R143, R144, R146). -/
def Confirms (before after : FdeModule) : Prop :=
  11 < before.idle.toNat ∧
  ((5 < older after.grads ∧ newer after.grads < -5) ∨ (older after.grads < -5 ∧ 5 < newer after.grads))

/-- The timeout test of module k + 1: IDLE after the update, the step count (R150). -/
def TimesOut (k : Fin 8) (s : State) (after : FdeModule) : Prop :=
  42 ≤ after.idle.toNat ∧ (k.val < 6 ∨ 300 < s.mps.steps.toNat)

/-- A logged age in the half-period window (R149). -/
def InWindow (l : LogSlot) : Prop := 18 ≤ l.age.toNat ∧ l.age.toNat ≤ 25

/-- The number of turns of an agent. -/
def countOf (a : Agent) (ts : List Turn) : Nat := ts.countP fun t => decide (t.agent = a)

/-- Only ticks and changes of the inputs: no HOST command and no reset. -/
def OnlyTicks (ts : List Turn) : Prop := ∀ t ∈ ts, t.agent = .mtimer ∨ t.agent = .dbtimer ∨ t.agent = .env

/-- No reset. -/
def NoReset (ts : List Turn) : Prop := ∀ t ∈ ts, t.agent ≠ .resetLine

/-- The code of a session status (R57). -/
def statusNumber : SessionStatus → Nat
  | .idle => 0 | .running => 1 | .succeeded => 2 | .failed => 3

/-- `mout[5:0]` of every mode and phase, from 95_test_vectors.md V-MPS-1: rows are modes 0..8, columns phases 0..7. -/
def moutTable : List (List (BitVec 6)) :=
  [[0b000011, 0b000011, 0b000011, 0b000011, 0b000011, 0b000011, 0b000011, 0b000011],
   [0b010110, 0b111100, 0b101001, 0b101000, 0b000010, 0b000000, 0b000001, 0b010100],
   [0b010110, 0b010100, 0b000001, 0b000000, 0b000010, 0b101000, 0b101001, 0b111100],
   [0b010110, 0b011100, 0b001001, 0b001000, 0b000010, 0b100000, 0b100001, 0b110100],
   [0b010110, 0b110100, 0b100001, 0b100000, 0b000010, 0b001000, 0b001001, 0b011100]] ++
  [[0b000110, 0b001100, 0b001001, 0b001000, 0b000010, 0b000000, 0b000001, 0b000100],
   [0b010010, 0b110000, 0b100001, 0b100000, 0b000010, 0b000000, 0b000001, 0b010000],
   [0b000110, 0b000100, 0b000001, 0b000000, 0b000010, 0b001000, 0b001001, 0b001100],
   [0b010010, 0b010000, 0b000001, 0b000000, 0b000010, 0b100000, 0b100001, 0b110000]]

/-- The nine modes with their codes, in the order of R41. -/
def modeCodes : List (Mode × BitVec 4) :=
  [(.stop, 0), (.fwd, 1), (.rev, 2), (.pivotCw, 3), (.pivotCcw, 4), (.turnFr, 5), (.turnFl, 6), (.turnBr, 7),
   (.turnBl, 8)]

/-- The LFSR step as arithmetic: twice the register, modulo 2^15, plus the exclusive-or of its two oldest bits (R271). -/
def lfsrStep (l : Nat) : Nat := 2 * l % 32768 + (if l.testBit 14 = l.testBit 13 then 0 else 1)

/-- The register of an LFSR addressed by a rotating pointer: 15 cells and the place of the oldest bit (R63). -/
structure Rotating where
  cells : Vector Bool 15
  ptr : Fin 15

/-- One step of the rotating form: the fresh bit replaces the oldest and the pointer advances (R63). -/
def Rotating.step (r : Rotating) : Rotating :=
  { cells := r.cells.set r.ptr.val (r.cells[r.ptr.val] ^^ r.cells[((r.ptr + 1 : Fin 15)).val]), ptr := r.ptr + 1 }

/-- Bit i of the logical register: `L[i] = c[(p - 1 - i) mod 15]` (R63). -/
def Rotating.bit (r : Rotating) (i : Fin 15) : Bool := r.cells[((r.ptr - 1 - i : Fin 15)).val]

/-- A circular sample buffer with a write index, the slot of the newest sample (R34). -/
structure Ring where
  cells : Vector Half 21
  write : Fin 21

/-- Push a sample over the oldest slot (R34). -/
def Ring.push (r : Ring) (x : Half) : Ring :=
  { cells := r.cells.set ((r.write + 1 : Fin 21)).val x, write := r.write + 1 }

/-- The sample of an age: `S[a] = ring[(w - a) mod 21]` (R34). -/
def Ring.age (r : Ring) (a : Fin 21) : Half := r.cells[((r.write - a : Fin 21)).val]

end Sys2Proof.Claims

open Sys2Proof Sys2Proof.Machine Sys2Proof.Claims

/-! ## Reset, turns and the command port -/

/-- R340: reset, and the external reset from any state, put every PBSB register at its reset value in one step. -/
def Obligations.ResetPutsEveryRegisterAtItsValue : Prop :=
  AtReset State.reset ∧ ∀ s : State, s.nextTurn.agent = .resetLine → ∃ t, step s = .next t ∧ AtReset t

/-- The HOST's turn runs the decoded command (R100, R106): step is exec of the command, in the state whose turn is taken
and whose write has left the queue (logs 1, 3, 4). -/
def Obligations.StepRunsTheDecodedCommand : Prop :=
  ∀ (s : State) (w : Word) (rest : List HostWrite) (i : Instr), s.nextTurn.agent = .host → s.held = false →
    s.cmds = .word w :: rest → decode w = .ok i → step s = exec i { atTurn s with cmds := rest }

/-- The turn that a step takes is the head of the script, or the free turn of that number when the script is empty (R88,
R94; logs 1, 4): its agent moves in the state in which that one turn has left the script, is counted, and the inputs read
what it says. A turn of ENV does that and nothing more. -/
def Obligations.ScriptedTurnComesNext : Prop :=
  ∀ s : State,
    (∀ (t : Turn) (rest : List Turn), s.script = t :: rest →
      step s = State.act t.agent { s with script := rest, turns := s.turns + 1, din := t.din, frc := t.frc }) ∧
    (∀ (t : Turn) (rest : List Turn), s.script = t :: rest → t.agent = .env →
      step s = .next { s with script := rest, turns := s.turns + 1, din := t.din, frc := t.frc }) ∧
    (s.script = [] →
      step s = State.act (Config.freeTurn s.turns).agent
        { s with turns := s.turns + 1, din := (Config.freeTurn s.turns).din, frc := (Config.freeTurn s.turns).frc })

/-- R311: a word that decode refuses sets ERR, responds 0x80000001, and changes nothing else. -/
def Obligations.IllegalWordSetsErrAndNothingElse : Prop :=
  ∀ (s : State) (w : Word) (rest : List HostWrite) (e : Reject), s.nextTurn.agent = .host → s.held = false →
    s.cmds = .word w :: rest → decode w = .error e → step s = .next (illegal { atTurn s with cmds := rest })

/-- R60, R227, R189: while the port is held the HOST has no step, while IVAL is OFF MTIMER has none, while the timer is
free DBTIMER has none: such a turn passes with the registers untouched (log 2). -/
def Obligations.DisabledAgentsChangeNothing : Prop :=
  ∀ s : State,
    (s.nextTurn.agent = .host → s.held = true → step s = .next (atTurn s)) ∧
    (s.nextTurn.agent = .mtimer → s.mps.ival = .off → step s = .next (atTurn s)) ∧
    (s.nextTurn.agent = .dbtimer → s.dbu.own = .free → step s = .next (atTurn s))

/-- R67: ENV writes only the inputs; MTIMER writes only PHASE, STEPS, MODE, IVAL, OE, CDOWN and DONE; DBTIMER writes only
DBT and, while a DB_BLK is in progress, also OWN, PORT.HELD and RESP. -/
def Obligations.TimersWriteOnlyTheirRegisters : Prop :=
  ∀ s : State,
    (s.nextTurn.agent = .env → step s = .next (atTurn s)) ∧
    (s.nextTurn.agent = .mtimer → ∃ m : Mps, step s = .next { atTurn s with mps := m } ∧
      m.prev = s.mps.prev ∧ m.thresh = s.mps.thresh) ∧
    (s.nextTurn.agent = .dbtimer → ∃ t, step s = .next t ∧
      t = { atTurn s with
              dbu := { s.dbu with own := t.dbu.own, dbt := t.dbu.dbt }, held := t.held, resp := t.resp } ∧
      (s.dbu.own ≠ .blocking → t.dbu.own = s.dbu.own ∧ t.held = s.held ∧ t.resp = s.resp))

/-- The only write the block has no step for is a partial one (R84; log 6): every other step goes on, and no step is
refused. -/
def Obligations.OnlyAPartialWriteStops : Prop :=
  ∀ s : State, (s.PartialWriteDue → step s = .fault .partialCommandWrite) ∧ (¬ s.PartialWriteDue → s.GoesOn)

/-- R115, R116: every legal command answers a next state, and its response has bit 31 clear; only a DB_BLK that takes a
free timer on a high pin gives no response yet (R183). -/
def Obligations.LegalResponsesHaveBit31Clear : Prop :=
  ∀ (i : Instr) (s : State), WellFormed i → ∃ t, exec i s = .next t ∧
    (t.resp.getLsbD 31 = false ∨
      ∃ p, i = .dbBlk p ∧ s.dbu.own = .free ∧ s.din.getLsbD p.toNat = true ∧ t.held = true ∧ t.resp = s.resp)

/-- The read commands of R85 change nothing but RESP, and two in a row return the same word. -/
def Obligations.ReadsAreIdempotent : Prop :=
  ∀ (i : Instr) (s : State), WellFormed i →
    (i = .status ∨ (∃ m e, i = .fdeRd m e) ∨ (∃ e, i = .motRd e) ∨ (∃ e, i = .dbStat e) ∨ i = .prbsRd) →
    ∃ v : Word, exec i s = .next { s with resp := v } ∧ exec i { s with resp := v } = .next { s with resp := v }

/-! ## Block commands -/

/-- NOP, STATUS and CLRERR (R300, R301, R302): each is one word, any other body is illegal, and each has exactly its
effect. -/
def Obligations.BlockCommandsHaveExactlyTheirEffect : Prop :=
  (decode 0x00000000#32 = .ok .nop ∧ decode 0x01000000#32 = .ok .status ∧ decode 0x02000000#32 = .ok .clrerr) ∧
  (∀ (op : BitVec 8) (body : BitVec 24), op.toNat ≤ 2 → body ≠ 0#24 → decode (op ++ body) = .error .reservedBits) ∧
  ∀ s : State,
    exec .nop s = .next { s with resp := 0#32 } ∧
    exec .status s = .next { s with resp := if s.err then 1#32 else 0#32 } ∧
    exec .clrerr s = .next { s with err := false, resp := 0#32 }

/-- ERR is sticky (R32, R317): only an illegal word sets it, and only CLRERR or reset clears it. -/
def Obligations.ErrIsSticky : Prop :=
  ∀ s t : State, step s = .next t →
    (s.err = false → t.err = true → ∃ w e, HostIssues w s ∧ decode w = .error e) ∧
    (s.err = true → t.err = false → HostIssues 0x02000000#32 s ∨ s.nextTurn.agent = .resetLine)

/-! ## Frequency-Detection Engine -/

/-- R142: an update pushes its sample and the gradient sign, newer minus older, and every other sample and sign grows one
age older. -/
def Obligations.FdeUpdPushesTheSample : Prop :=
  ∀ (s : State) (k : Fin 8) (x : Half), ∃ t, exec (.fdeUpd (idOf k) x) s = .next t ∧
    t.fde[k].samples[0] = x ∧
    (∀ a : Fin 20, t.fde[k].samples[a.val + 1] = s.fde[k].samples[a.val]) ∧
    (s.fde[k].samples[0].toNat < x.toNat → t.fde[k].grads[0] = .pos) ∧
    (s.fde[k].samples[0].toNat = x.toNat → t.fde[k].grads[0] = .zero) ∧
    (x.toNat < s.fde[k].samples[0].toNat → t.fde[k].grads[0] = .neg) ∧
    (∀ a : Fin 19, t.fde[k].grads[a.val + 1] = s.fde[k].grads[a.val])

/-- R143 to R147: a confirmation logs the midpoint and the idle count before the update and sets IDLE to 0; any other
update counts IDLE up, saturating at 255, and leaves the log unless the timeout of R150 clears it. -/
def Obligations.FdeUpdLogsAConfirmedExtremum : Prop :=
  ∀ (s : State) (k : Fin 8) (x : Half), ∃ t, exec (.fdeUpd (idOf k) x) s = .next t ∧
    (Confirms s.fde[k] t.fde[k] →
      t.fde[k].idle = 0#8 ∧ t.fde[k].log0 = s.fde[k].log1 ∧
      t.fde[k].log1 = ⟨t.fde[k].samples[10], s.fde[k].idle⟩) ∧
    (¬ Confirms s.fde[k] t.fde[k] →
      t.fde[k].idle.toNat = min (s.fde[k].idle.toNat + 1) 255 ∧
      (¬ TimesOut k s t.fde[k] → t.fde[k].log0 = s.fde[k].log0 ∧ t.fde[k].log1 = s.fde[k].log1))

/-- R148, R149, R150: the result of an update, by the class of the module, and the timeout that clears log and result. -/
def Obligations.FdeUpdComputesTheResult : Prop :=
  ∀ (s : State) (k : Fin 8) (x : Half), ∃ t, exec (.fdeUpd (idOf k) x) s = .next t ∧
    (TimesOut k s t.fde[k] →
      t.fde[k].log0 = ⟨0#16, 0#8⟩ ∧ t.fde[k].log1 = ⟨0#16, 0#8⟩ ∧ t.fde[k].result = 0#16) ∧
    (¬ TimesOut k s t.fde[k] → k.val < 6 → InWindow t.fde[k].log0 → InWindow t.fde[k].log1 →
      t.fde[k].result.toNat = ((t.fde[k].log0.level.toNat : Int) - (t.fde[k].log1.level.toNat : Int)).natAbs) ∧
    (¬ TimesOut k s t.fde[k] → k.val < 6 → ¬ (InWindow t.fde[k].log0 ∧ InWindow t.fde[k].log1) →
      t.fde[k].result = 0#16) ∧
    (¬ TimesOut k s t.fde[k] → 6 ≤ k.val → Confirms s.fde[k] t.fde[k] → t.fde[k].result = 1#16) ∧
    (¬ TimesOut k s t.fde[k] → 6 ≤ k.val → ¬ Confirms s.fde[k] t.fde[k] → t.fde[k].result = s.fde[k].result) ∧
    t.resp.toNat = t.fde[k].result.toNat

/-- R140: an update of one module changes no other module and no register but RESP. -/
def Obligations.FdeUpdChangesOnlyItsModule : Prop :=
  ∀ (s : State) (k : Fin 8) (x : Half), ∃ t, exec (.fdeUpd (idOf k) x) s = .next t ∧
    t = { s with fde := t.fde, resp := t.resp } ∧ ∀ j : Fin 8, j ≠ k → t.fde[j] = s.fde[j]

/-- R140: what an update leaves in its module and responds depends on that module alone, and for a rotation module on
MPS.STEPS as well. -/
def Obligations.FdeUpdReadsOnlyItsModule : Prop :=
  ∀ (s₁ s₂ : State) (k : Fin 8) (x : Half), s₁.fde[k] = s₂.fde[k] → (k.val < 6 ∨ s₁.mps.steps = s₂.mps.steps) →
    ∃ t₁ t₂, exec (.fdeUpd (idOf k) x) s₁ = .next t₁ ∧ exec (.fdeUpd (idOf k) x) s₂ = .next t₂ ∧
      t₁.fde[k] = t₂.fde[k] ∧ t₁.resp = t₂.resp

/-- R109: an unrecognized module id is a no-op that responds 0, legal and without ERR. -/
def Obligations.UnrecognizedModuleIsANoOp : Prop :=
  ∀ (s : State) (m sel : BitVec 4) (x : Half), (m.toNat = 0 ∨ 9 ≤ m.toNat) →
    WellFormed (.fdeUpd m x) ∧ exec (.fdeUpd m x) s = .next { s with resp := 0#32 } ∧
    (sel.toNat ≤ 6 → WellFormed (.fdeRd m sel) ∧ exec (.fdeRd m sel) s = .next { s with resp := 0#32 })

/-- FDE_RD (R152): its word, each selector of each module, an unrecognized module, and the reserved selectors, which are
checked before the module id. -/
def Obligations.FdeRdReadsTheSelectedField : Prop :=
  ∀ (s : State) (k : Fin 8),
    exec (.fdeRd (idOf k) 0) s = .next { s with resp := s.fde[k].result.setWidth 32 } ∧
    exec (.fdeRd (idOf k) 1) s = .next { s with resp := s.fde[k].idle.setWidth 32 } ∧
    exec (.fdeRd (idOf k) 2) s = .next { s with resp := s.fde[k].log0.level.setWidth 32 } ∧
    exec (.fdeRd (idOf k) 3) s = .next { s with resp := s.fde[k].log0.age.setWidth 32 } ∧
    exec (.fdeRd (idOf k) 4) s = .next { s with resp := s.fde[k].log1.level.setWidth 32 } ∧
    exec (.fdeRd (idOf k) 5) s = .next { s with resp := s.fde[k].log1.age.setWidth 32 } ∧
    exec (.fdeRd (idOf k) 6) s = .next { s with resp := s.fde[k].samples[10].setWidth 32 } ∧
    ∀ m sel : BitVec 4,
      (sel.toNat ≤ 6 → decode (0x11#8 ++ (0#4 ++ m ++ 0#12 ++ sel)) = .ok (.fdeRd m sel)) ∧
      (sel.toNat ≤ 6 → (m.toNat = 0 ∨ 9 ≤ m.toNat) → exec (.fdeRd m sel) s = .next { s with resp := 0#32 }) ∧
      (7 ≤ sel.toNat → exec (.fdeRd m sel) s = .next (illegal s))

/-- R154: after a confirmation, the next twelve updates of the module confirm nothing: IDLE counts them and the log stays. -/
def Obligations.ConfirmationsAreThirteenUpdatesApart : Prop :=
  ∀ (s : State) (k : Fin 8) (xs : List Half), s.fde[k].idle = 0#8 → xs.length ≤ 12 →
    ∃ t, runAll (xs.map fun x => .fdeUpd (idOf k) x) s = .next t ∧
      t.fde[k].idle.toNat = xs.length ∧ t.fde[k].log0 = s.fde[k].log0 ∧ t.fde[k].log1 = s.fde[k].log1

/-- R344: from any state in which the module is as reset leaves it, whatever the other registers hold, no stream of
fifteen samples confirms anything, and some stream of sixteen does. -/
def Obligations.SixteenthUpdateIsTheFirstToConfirm : Prop :=
  ∀ (s : State) (k : Fin 8), s.fde[k] = FdeModule.reset →
    (∀ xs : List Half, xs.length ≤ 15 →
      ∃ t, runAll (xs.map fun x => .fdeUpd (idOf k) x) s = .next t ∧
        t.fde[k].idle.toNat = xs.length ∧ t.fde[k].log0 = ⟨0#16, 0#8⟩ ∧ t.fde[k].log1 = ⟨0#16, 0#8⟩ ∧
        t.fde[k].result = 0#16) ∧
    ∃ xs : List Half, xs.length = 16 ∧
      ∃ t, runAll (xs.map fun x => .fdeUpd (idOf k) x) s = .next t ∧
        t.fde[k].idle = 0#8 ∧ t.fde[k].log1.age = 15#8

/-- R156: on a collision module, forty-two updates without a confirmation leave the log clear and the result 0. -/
def Obligations.FortyTwoUpdatesWithoutExtremumClearTheResult : Prop :=
  ∀ (s : State) (k : Fin 8) (xs : List Half), k.val < 6 → xs.length = 42 →
    (∀ n, 1 ≤ n → n ≤ 42 → ∃ u, runAll ((xs.take n).map fun x => .fdeUpd (idOf k) x) s = .next u ∧
      u.fde[k].idle ≠ 0#8) →
    ∃ t, runAll (xs.map fun x => .fdeUpd (idOf k) x) s = .next t ∧
      t.fde[k].log0 = ⟨0#16, 0#8⟩ ∧ t.fde[k].log1 = ⟨0#16, 0#8⟩ ∧ t.fde[k].result = 0#16

/-- R34: a circular buffer with a write index is an equivalent implementation of the sample ring. -/
def Obligations.CircularBufferImplementsTheSampleRing : Prop :=
  ∀ (s : State) (k : Fin 8) (x : Half) (r : Ring), (∀ a : Fin 21, s.fde[k].samples[a] = r.age a) →
    ∃ t, exec (.fdeUpd (idOf k) x) s = .next t ∧ ∀ a : Fin 21, t.fde[k].samples[a] = (r.push x).age a

/-! ## Motor Phase Sequencer -/

/-- MOT_MOVE (R222): its word; modes 1..8 with both start kinds and exactly their effect; modes 0 and 9..15 are illegal
and change no MPS register (R112). -/
def Obligations.MotMoveStartsAManeuver : Prop :=
  ∀ (s : State) (thresh : Half),
    (∀ p ∈ modeCodes, p.1 ≠ .stop →
      (∀ d : Bool, decode (0x20#8 ++ (p.2 ++ 0#3 ++ BitVec.ofBool d ++ thresh)) = .ok (.motMove p.2 d thresh)) ∧
      exec (.motMove p.2 true thresh) s = .next { s with
        resp := 0#32
        mps := { mode := p.1, prev := s.mps.mode, phase := s.mps.phase, steps := 0#16, thresh := thresh, done := false,
                 ival := .slow, oe := false, cdown := s.params.softstart } } ∧
      exec (.motMove p.2 false thresh) s = .next { s with
        resp := 0#32
        mps := { mode := p.1, prev := s.mps.mode, phase := s.mps.phase, steps := 0#16, thresh := thresh, done := false,
                 ival := .fast, oe := true, cdown := 0#16 } }) ∧
    ∀ (mode : BitVec 4) (d : Bool), (mode = 0#4 ∨ 9 ≤ mode.toNat) →
      exec (.motMove mode d thresh) s = .next (illegal s)

/-- MOT_STOP (R223): its word and exactly its effect; STEPS, THRESH, DONE and PHASE are unchanged, and mout is the safe-idle pattern
(R53). -/
def Obligations.MotStopStopsAtOnce : Prop :=
  decode 0x21000000#32 = .ok .motStop ∧ ∀ s : State, ∃ t, exec .motStop s = .next t ∧
    t = { s with
      resp := 0#32
      mps := { s.mps with prev := s.mps.mode, mode := .stop, ival := .off, oe := false, cdown := 0#16 } } ∧
    t.mps.mout = 0b0000011#7

/-- MOT_RD (R224): its word, each selector, the status word field by field, and the reserved selectors. -/
def Obligations.MotRdReadsTheSelectedWord : Prop :=
  ∀ s : State,
    exec (.motRd 0) s = .next { s with resp := s.mps.steps.setWidth 32 } ∧
    exec (.motRd 1) s = .next { s with resp := s.mps.thresh.setWidth 32 } ∧
    (∃ v : Word, exec (.motRd 2) s = .next { s with resp := v } ∧
      (s.mps.mode, v.extractLsb' 0 4) ∈ modeCodes ∧ (s.mps.prev, v.extractLsb' 4 4) ∈ modeCodes ∧
      v.extractLsb' 8 3 = s.mps.phase ∧ v.getLsbD 11 = s.mps.done ∧
      (s.mps.ival, v.extractLsb' 12 2) ∈ [(Interval.off, 0#2), (.slow, 1#2), (.fast, 2#2)] ∧
      v.getLsbD 14 = s.mps.oe ∧ v.extractLsb' 15 17 = 0#17) ∧
    exec (.motRd 3) s = .next { s with resp := s.mps.mout.setWidth 32 } ∧
    exec (.motRd 4) s = .next { s with resp := s.mps.cdown.setWidth 32 } ∧
    ∀ sel : BitVec 4,
      (sel.toNat ≤ 4 → decode (0x22#8 ++ (0#20 ++ sel)) = .ok (.motRd sel)) ∧
      (5 ≤ sel.toNat → exec (.motRd sel) s = .next (illegal s))

/-- R51, R52: mout in every mode, phase and output-stage state, against the table of 95_test_vectors.md V-MPS-1. -/
def Obligations.MotorOutputsFollowTheTable : Prop :=
  ∀ (m : Mps) (p : Mode × BitVec 4), p ∈ modeCodes → m.mode = p.1 →
    ∃ row, moutTable[p.2.toNat]? = some row ∧ row[m.phase.toNat]? = some (m.mout.extractLsb' 0 6) ∧
      m.mout.getLsbD 6 = m.oe

/-- R236, R237, R238: a motor tick advances PHASE and STEPS; at the threshold it forces the stop, else it counts the soft
start down, and the tick that reaches 0 switches to FAST and enables the output stage. -/
def Obligations.MotorTickAdvancesStopsOrCountsDown : Prop :=
  ∀ (s : State) (steps : Half), s.nextTurn.agent = .mtimer → s.mps.ival ≠ .off →
    steps.toNat = min (s.mps.steps.toNat + 1) 65535 →
    (steps = s.mps.thresh → step s = .next { atTurn s with
      mps := { s.mps with phase := s.mps.phase + 1#3, steps := steps, mode := .stop, ival := .off, oe := false,
                          cdown := 0#16, done := true } }) ∧
    (steps ≠ s.mps.thresh → 2 ≤ s.mps.cdown.toNat → step s = .next { atTurn s with
      mps := { s.mps with phase := s.mps.phase + 1#3, steps := steps, cdown := s.mps.cdown - 1#16 } }) ∧
    (steps ≠ s.mps.thresh → s.mps.cdown = 1#16 → step s = .next { atTurn s with
      mps := { s.mps with phase := s.mps.phase + 1#3, steps := steps, cdown := 0#16, ival := .fast, oe := true } }) ∧
    (steps ≠ s.mps.thresh → s.mps.cdown = 0#16 → step s = .next { atTurn s with
      mps := { s.mps with phase := s.mps.phase + 1#3, steps := steps } })

/-- R239, R240: a maneuver with threshold T >= 1 runs for its first T - 1 motor ticks and ends at the T-th, whatever its
start kind and whatever other ticks fall between; PHASE counts the ticks, and the end leaves the safe-idle outputs. -/
def Obligations.ManeuverEndsAfterExactlyThresholdTicks : Prop :=
  ∀ (s : State) (p : Mode × BitVec 4) (d : Bool) (thresh : Half) (ts rest : List Turn),
    p ∈ modeCodes → p.1 ≠ .stop → thresh ≠ 0#16 → s.script = ts ++ rest → OnlyTicks ts →
    ∃ u t, exec (.motMove p.2 d thresh) s = .next u ∧ runFor ts.length u = .next t ∧
      (countOf .mtimer ts < thresh.toNat →
        t.mps.mode = p.1 ∧ t.mps.ival ≠ .off ∧ t.mps.done = false ∧ t.mps.steps.toNat = countOf .mtimer ts ∧
        t.mps.phase = s.mps.phase + BitVec.ofNat 3 (countOf .mtimer ts)) ∧
      (thresh.toNat ≤ countOf .mtimer ts →
        t.mps.mode = .stop ∧ t.mps.ival = .off ∧ t.mps.done = true ∧ t.mps.steps = thresh ∧
        t.mps.phase = s.mps.phase + BitVec.ofNat 3 thresh.toNat ∧ t.mps.mout = 0b0000011#7)

/-- R225: a deferred start runs SLOW with the output stage off for exactly SOFTSTART_TICKS motor ticks, and is FAST with
the output stage on at the end of the last of them. -/
def Obligations.SoftStartTakesExactlySoftstartTicks : Prop :=
  ∀ (s : State) (p : Mode × BitVec 4) (thresh : Half) (ts rest : List Turn),
    p ∈ modeCodes → p.1 ≠ .stop → s.params.Legal → s.script = ts ++ rest → OnlyTicks ts →
    (thresh = 0#16 ∨ countOf .mtimer ts < thresh.toNat) →
    ∃ u t, exec (.motMove p.2 true thresh) s = .next u ∧ runFor ts.length u = .next t ∧
      (countOf .mtimer ts < s.params.softstart.toNat →
        t.mps.ival = .slow ∧ t.mps.oe = false ∧ t.mps.mout.getLsbD 6 = false ∧
        t.mps.cdown.toNat = s.params.softstart.toNat - countOf .mtimer ts) ∧
      (s.params.softstart.toNat ≤ countOf .mtimer ts →
        t.mps.ival = .fast ∧ t.mps.oe = true ∧ t.mps.mout.getLsbD 6 = true ∧ t.mps.cdown = 0#16)

/-- R46: a maneuver with threshold 0 never ends by itself; STEPS saturates at 0xFFFF (R45). -/
def Obligations.ThresholdZeroNeverEnds : Prop :=
  ∀ (s : State) (p : Mode × BitVec 4) (d : Bool) (ts rest : List Turn),
    p ∈ modeCodes → p.1 ≠ .stop → s.script = ts ++ rest → OnlyTicks ts →
    ∃ u t, exec (.motMove p.2 d 0#16) s = .next u ∧ runFor ts.length u = .next t ∧
      t.mps.mode = p.1 ∧ t.mps.ival ≠ .off ∧ t.mps.done = false ∧
      t.mps.steps.toNat = min (countOf .mtimer ts) 65535

/-- R44: a motor tick advances PHASE by 1 mod 8, reset sets it to 0, and nothing else changes it. -/
def Obligations.PhaseAdvancesOnlyByMotorTicks : Prop :=
  ∀ s t : State, step s = .next t →
    (s.nextTurn.agent = .mtimer → s.mps.ival ≠ .off → t.mps.phase.toNat = (s.mps.phase.toNat + 1) % 8) ∧
    (s.nextTurn.agent = .resetLine → t.mps.phase = 0#3) ∧
    (s.nextTurn.agent ≠ .resetLine → (s.nextTurn.agent ≠ .mtimer ∨ s.mps.ival = .off) → t.mps.phase = s.mps.phase)

/-- R47: only a forced stop sets DONE; only MOT_MOVE or reset clears it. -/
def Obligations.DoneIsSetByForcedStopOnly : Prop :=
  ∀ s t : State, step s = .next t →
    (s.mps.done = false → t.mps.done = true →
      s.nextTurn.agent = .mtimer ∧ t.mps.steps = t.mps.thresh ∧ t.mps.mode = .stop) ∧
    (s.mps.done = true → t.mps.done = false →
      s.nextTurn.agent = .resetLine ∨ ∃ w m d th, HostIssues w s ∧ decode w = .ok (.motMove m d th))

/-! ## Debounce Unit -/

/-- R182: a DB_BLK or DB_START while the timer is owned changes nothing but RESP, which reads 0. -/
def Obligations.OwnedTimerRejectsRequests : Prop :=
  ∀ (s : State) (p : BitVec 4), s.dbu.own ≠ .free →
    exec (.dbBlk p) s = .next { s with resp := 0#32 } ∧ exec (.dbStart p) s = .next { s with resp := 0#32 }

/-- DB_BLK (R183): its word; an owned timer rejects it; on a free timer a high pin holds the port and gives no response
yet (log 13), and a low pin answers 0 at once and releases the timer. -/
def Obligations.DbBlkHoldsOnAHighPin : Prop :=
  ∀ (s : State) (p : BitVec 4),
    decode (0x30#8 ++ (0#20 ++ p)) = .ok (.dbBlk p) ∧
    (s.dbu.own ≠ .free → exec (.dbBlk p) s = .next { s with resp := 0#32 }) ∧
    (s.dbu.own = .free → s.din.getLsbD p.toNat = true →
      exec (.dbBlk p) s = .next { s with
        held := true, dbu := { s.dbu with own := .blocking, dbt := 0#16, bpin := p } }) ∧
    (s.dbu.own = .free → s.din.getLsbD p.toNat = false →
      exec (.dbBlk p) s = .next { s with
        resp := 0#32, dbu := { s.dbu with own := .free, dbt := 0#16, bpin := p } })

/-- DB_START (R184): its word; an owned timer rejects it; on a free timer it starts a session, whatever status an earlier
one left. -/
def Obligations.DbStartStartsASession : Prop :=
  ∀ (s : State) (p : BitVec 4),
    decode (0x31#8 ++ (0#20 ++ p)) = .ok (.dbStart p) ∧
    (s.dbu.own ≠ .free → exec (.dbStart p) s = .next { s with resp := 0#32 }) ∧
    (s.dbu.own = .free → exec (.dbStart p) s = .next { s with
      resp := 1#32
      dbu := { s.dbu with own := .session, dbt := 0#16, spin := p, nextAt := s.params.nbInc, sstat := .running } })

/-- DB_ADV (R185): its word and its effect, case by case; a low sample wins over the window test (R316). -/
def Obligations.DbAdvAdvancesTheSession : Prop :=
  decode 0x32000000#32 = .ok .dbAdv ∧
  ∀ (s : State) (later : Half), later.toNat = min (s.dbu.nextAt.toNat + s.params.nbInc.toNat) 65535 →
    ∃ t, exec .dbAdv s = .next t ∧ t = { s with dbu := t.dbu, resp := t.resp } ∧
      t.resp.toNat = statusNumber t.dbu.sstat ∧
      (s.dbu.sstat ≠ .running → t.dbu = s.dbu) ∧
      (s.dbu.sstat = .running → s.dbu.nextAt.toNat ≤ s.dbu.dbt.toNat → s.din.getLsbD s.dbu.spin.toNat = false →
        t.dbu = { s.dbu with sstat := .failed, own := .free }) ∧
      (s.dbu.sstat = .running → s.dbu.nextAt.toNat ≤ s.dbu.dbt.toNat → s.din.getLsbD s.dbu.spin.toNat = true →
        s.params.nbWindow.toNat ≤ s.dbu.dbt.toNat →
        t.dbu = { s.dbu with nextAt := later, sstat := .succeeded, own := .free }) ∧
      (s.dbu.sstat = .running → s.dbu.nextAt.toNat ≤ s.dbu.dbt.toNat → s.din.getLsbD s.dbu.spin.toNat = true →
        s.dbu.dbt.toNat < s.params.nbWindow.toNat → t.dbu = { s.dbu with nextAt := later }) ∧
      (s.dbu.sstat = .running → s.dbu.dbt.toNat < s.dbu.nextAt.toNat → s.params.nbWindow.toNat ≤ s.dbu.dbt.toNat →
        t.dbu = { s.dbu with sstat := .succeeded, own := .free }) ∧
      (s.dbu.sstat = .running → s.dbu.dbt.toNat < s.dbu.nextAt.toNat → s.dbu.dbt.toNat < s.params.nbWindow.toNat →
        t.dbu = s.dbu)

/-- DB_STAT and DB_CLR (R186, R187): their words, each selector, the status word field by field, the reserved selectors, and the
clearing of a finished session only. -/
def Obligations.DbStatAndDbClr : Prop :=
  ∀ s : State,
    (∃ v : Word, exec (.dbStat 0) s = .next { s with resp := v } ∧
      v.extractLsb' 12 4 = s.dbu.bpin ∧ v.extractLsb' 8 4 = s.dbu.spin ∧
      (s.dbu.own, v.extractLsb' 4 2) ∈ [(Owner.free, 0#2), (.blocking, 1#2), (.session, 2#2)] ∧
      (v.extractLsb' 0 2).toNat = statusNumber s.dbu.sstat ∧
      v.extractLsb' 2 2 = 0#2 ∧ v.extractLsb' 6 2 = 0#2 ∧ v.extractLsb' 16 16 = 0#16) ∧
    exec (.dbStat 1) s = .next { s with resp := s.dbu.dbt.setWidth 32 } ∧
    exec (.dbStat 2) s = .next { s with resp := s.dbu.nextAt.setWidth 32 } ∧
    (∀ sel : BitVec 4,
      (sel.toNat ≤ 2 → decode (0x33#8 ++ (0#20 ++ sel)) = .ok (.dbStat sel)) ∧
      (3 ≤ sel.toNat → exec (.dbStat sel) s = .next (illegal s))) ∧
    decode 0x34000000#32 = .ok .dbClr ∧
    (s.dbu.sstat = .succeeded ∨ s.dbu.sstat = .failed →
      exec .dbClr s = .next { s with resp := 0#32, dbu := { s.dbu with sstat := .idle } }) ∧
    (s.dbu.sstat = .running → exec .dbClr s = .next { s with resp := 1#32 }) ∧
    (s.dbu.sstat = .idle → exec .dbClr s = .next { s with resp := 0#32 })

/-- R189, R190: a debounce tick counts, saturating; a session does nothing else; a blocking call completes with 0 on a low
sample, which wins over the window test, and with 1 when its window has elapsed. -/
def Obligations.DebounceTickCountsAndCompletes : Prop :=
  ∀ (s : State) (dbt : Half), s.nextTurn.agent = .dbtimer → dbt.toNat = min (s.dbu.dbt.toNat + 1) 65535 →
    (s.dbu.own = .session → step s = .next { atTurn s with dbu := { s.dbu with dbt := dbt } }) ∧
    (s.dbu.own = .blocking → s.nextTurn.din.getLsbD s.dbu.bpin.toNat = false →
      step s = .next { atTurn s with
        dbu := { s.dbu with dbt := dbt, own := .free }, held := false, resp := 0#32 }) ∧
    (s.dbu.own = .blocking → s.nextTurn.din.getLsbD s.dbu.bpin.toNat = true →
      s.params.blkWindow.toNat ≤ dbt.toNat →
      step s = .next { atTurn s with
        dbu := { s.dbu with dbt := dbt, own := .free }, held := false, resp := 1#32 }) ∧
    (s.dbu.own = .blocking → s.nextTurn.din.getLsbD s.dbu.bpin.toNat = true →
      dbt.toNat < s.params.blkWindow.toNat → step s = .next { atTurn s with dbu := { s.dbu with dbt := dbt } })

/-- R183, R189, R316: a DB_BLK that holds the port, with every debounce tick so far high and fewer than BLK_WINDOW of
them, still holds; the next tick answers 0 if it is low, and 1 if it is high and the BLK_WINDOW-th. Other agents' turns
between do not matter. That RESP keeps its value during the hold is the model's reading (log 13). -/
def Obligations.BlockingDebounceAnswersAtTheRightTick : Prop :=
  ∀ (s : State) (p : BitVec 4) (ts rest : List Turn) (d : Turn),
    s.dbu.own = .free → s.din.getLsbD p.toNat = true → s.script = ts ++ d :: rest → NoReset ts →
    (∀ t ∈ ts, t.agent = .dbtimer → t.din.getLsbD p.toNat = true) →
    countOf .dbtimer ts < s.params.blkWindow.toNat → d.agent = .dbtimer →
    ∃ u v t, exec (.dbBlk p) s = .next u ∧ runFor ts.length u = .next v ∧ step v = .next t ∧
      (v.held = true ∧ v.dbu.own = .blocking ∧ v.dbu.dbt.toNat = countOf .dbtimer ts ∧ v.resp = s.resp) ∧
      (d.din.getLsbD p.toNat = false → t.held = false ∧ t.dbu.own = .free ∧ t.resp = 0#32) ∧
      (d.din.getLsbD p.toNat = true → countOf .dbtimer ts + 1 = s.params.blkWindow.toNat →
        t.held = false ∧ t.dbu.own = .free ∧ t.resp = 1#32)

/-- R352: a hold ends after at most BLK_WINDOW debounce ticks, whatever the pin reads and whoever else moves. -/
def Obligations.HoldIsBounded : Prop :=
  ∀ (s : State) (ts rest : List Turn), s.Inv → s.held = true → s.script = ts ++ rest → NoReset ts →
    countOf .dbtimer ts = s.params.blkWindow.toNat →
    ∃ n t, n ≤ ts.length ∧ runFor n s = .next t ∧ t.held = false

/-- R194, with the tick that R185's window test gives: a session advanced once after each debounce tick, with its pin high
at every advance, is RUNNING before tick NB_WINDOW and SUCCEEDED at it. R194 names no tick; where NB_INC does not divide
NB_WINDOW, success at that tick is the model's choice of R185 over R188's sample count (log 18). -/
def Obligations.SessionHeldHighSucceeds : Prop :=
  ∀ (s : State) (p : BitVec 4) (ts : List (Turn × Turn)) (rest : List Turn) (more : List HostWrite),
    s.dbu.own = .free → s.held = false → s.params.Legal → ts.length ≤ s.params.nbWindow.toNat →
    s.script = (ts.flatMap fun q => [q.1, q.2]) ++ rest →
    s.cmds = List.replicate ts.length (.word 0x32000000#32) ++ more →
    (∀ q ∈ ts, q.1.agent = .dbtimer ∧ q.2.agent = .host ∧ q.2.din.getLsbD p.toNat = true) →
    ∃ u t, exec (.dbStart p) s = .next u ∧ runFor (2 * ts.length) u = .next t ∧
      (ts.length < s.params.nbWindow.toNat → t.dbu.sstat = .running ∧ t.resp = 1#32) ∧
      (ts.length = s.params.nbWindow.toNat → t.dbu.sstat = .succeeded ∧ t.dbu.own = .free ∧ t.resp = 2#32)

/-- R188's sample points: with one DB_ADV after each debounce tick, and the pin high at every advance before this one, a low
pin at this advance fails the session exactly when DBT is a multiple of NB_INC; at any other DBT it is not seen. So every
sample point up to NB_WINDOW is sampled at the DBT value it names. Where NB_INC does not divide NB_WINDOW the advance at
NB_WINDOW takes no sample and succeeds, which is R185's effect and the model's choice over R188's count (log 18); a NEXT that
has saturated at 65535 is left out of that clause. -/
def Obligations.SessionSamplesExactlyItsSchedule : Prop :=
  ∀ (s : State) (p : BitVec 4) (ts : List (Turn × Turn)) (q : Turn × Turn) (rest : List Turn) (more : List HostWrite),
    s.dbu.own = .free → s.held = false → s.params.Legal → ts.length + 1 ≤ s.params.nbWindow.toNat →
    s.script = (ts.flatMap fun r => [r.1, r.2]) ++ q.1 :: q.2 :: rest →
    s.cmds = List.replicate (ts.length + 1) (.word 0x32000000#32) ++ more →
    (∀ r ∈ ts, r.1.agent = .dbtimer ∧ r.2.agent = .host ∧ r.2.din.getLsbD p.toNat = true) →
    q.1.agent = .dbtimer → q.2.agent = .host → q.2.din.getLsbD p.toNat = false →
    ∃ u t, exec (.dbStart p) s = .next u ∧ runFor (2 * (ts.length + 1)) u = .next t ∧
      t.dbu.dbt.toNat = ts.length + 1 ∧
      (s.params.nbInc.toNat ∣ ts.length + 1 → t.dbu.sstat = .failed ∧ t.dbu.own = .free ∧ t.resp = 3#32) ∧
      (¬ s.params.nbInc.toNat ∣ ts.length + 1 → ts.length + 1 < s.params.nbWindow.toNat →
        t.dbu.sstat = .running ∧ t.dbu.own = .session ∧ t.resp = 1#32) ∧
      (¬ s.params.nbInc.toNat ∣ ts.length + 1 → ts.length + 1 = s.params.nbWindow.toNat →
        s.params.nbWindow.toNat < 65535 → t.dbu.sstat = .succeeded ∧ t.dbu.own = .free ∧ t.resp = 2#32)

/-- R185, R188: no session succeeds without a sample: a session that has taken none (NEXT still NB_INC) and succeeds at
this advance samples a high pin at it. -/
def Obligations.SuccessNeedsAHighSample : Prop :=
  ∀ s t : State, s.params.Legal → s.dbu.sstat = .running → s.dbu.nextAt = s.params.nbInc → exec .dbAdv s = .next t →
    t.dbu.sstat = .succeeded → s.din.getLsbD s.dbu.spin.toNat = true

/-! ## PRBS Generator -/

/-- PRBS_GEN (R271, R272, R274): a zero register is reseeded first; the register steps 1, 3, 15 or 15 times; the response
is the value of the request, and the floors do not change the register. -/
def Obligations.PrbsGenStepsAndAnswers : Prop :=
  ∀ (s : State) (kind : BitVec 2), ∃ t, exec (.prbsGen kind) s = .next t ∧
    t = { s with prg := t.prg, resp := t.resp } ∧
    (∃ start n : Nat,
      (s.prg ≠ 0#15 → start = s.prg.toNat) ∧
      (s.prg = 0#15 → s.frc.toNat % 32768 ≠ 0 → start = s.frc.toNat % 32768) ∧
      (s.prg = 0#15 → s.frc.toNat % 32768 = 0 → start = s.params.fallback.toNat) ∧
      (kind.toNat = 0 → n = 1) ∧ (kind.toNat = 1 → n = 3) ∧ (2 ≤ kind.toNat → n = 15) ∧
      t.prg.toNat = lfsrStep^[n] start) ∧
    (kind.toNat = 0 → t.resp.toNat = t.prg.toNat % 2) ∧
    (kind.toNat = 1 → t.resp.toNat = t.prg.toNat % 4) ∧
    (kind.toNat = 2 → t.prg.toNat.testBit 8 = true → t.resp.toNat = t.prg.toNat % 512) ∧
    (kind.toNat = 2 → t.prg.toNat.testBit 8 = false → t.resp.toNat = t.prg.toNat % 512 ||| 0x0C0) ∧
    ∀ bit : Nat, (s.params.timeFloor, bit) ∈ [(TimeFloor.bit11, 11), (.bit12, 12)] → kind.toNat = 3 →
      (t.prg.toNat.testBit bit = true → t.resp.toNat = t.prg.toNat % 8192) ∧
      (t.prg.toNat.testBit bit = false → t.resp.toNat = t.prg.toNat % 8192 ||| 0x600)

/-- R279: the ranges of the four requests, for both values of TIME_FLOOR_BIT. -/
def Obligations.PrbsValuesStayInTheirRanges : Prop :=
  ∀ (s : State) (kind : BitVec 2), ∃ t, exec (.prbsGen kind) s = .next t ∧
    (kind.toNat = 0 → t.resp.toNat ≤ 1) ∧ (kind.toNat = 1 → t.resp.toNat ≤ 3) ∧
    (kind.toNat = 2 → 192 ≤ t.resp.toNat ∧ t.resp.toNat ≤ 511) ∧
    (kind.toNat = 3 → 1536 ≤ t.resp.toNat ∧ t.resp.toNat ≤ 8191)

/-- R278: after any PRBS_GEN the register is nonzero. -/
def Obligations.PrbsGenLeavesTheRegisterNonzero : Prop :=
  ∀ (s : State) (kind : BitVec 2), s.params.Legal → ∃ t, exec (.prbsGen kind) s = .next t ∧ t.prg ≠ 0#15

/-- R278: from any nonzero register, single-step requests return to it exactly at the multiples of 32767. -/
def Obligations.PrbsPeriodIs32767 : Prop :=
  ∀ (s : State) (n : Nat), s.prg ≠ 0#15 →
    ∃ t, runAll (List.replicate n (.prbsGen 0)) s = .next t ∧ (t.prg = s.prg ↔ 32767 ∣ n)

/-- PRBS_SEED and PRBS_RD (R276, R277): their words and exactly their effect, seed 0 included; reading neither reseeds nor steps. -/
def Obligations.PrbsSeedLoadsAndPrbsRdReads : Prop :=
  ∀ (s : State) (seed : BitVec 15),
    decode (0x41#8 ++ (0#9 ++ seed)) = .ok (.prbsSeed seed) ∧ decode 0x42000000#32 = .ok .prbsRd ∧
    exec (.prbsSeed seed) s = .next { s with prg := seed, resp := 0#32 } ∧
    exec .prbsRd s = .next { s with resp := s.prg.setWidth 32 }

/-- R280: only PRBS_GEN, PRBS_SEED and reset change PRG.L; no tick does. -/
def Obligations.OnlyPrbsCommandsChangeTheRegister : Prop :=
  ∀ s t : State, step s = .next t → t.prg ≠ s.prg →
    s.nextTurn.agent = .resetLine ∨
    ∃ w i, HostIssues w s ∧ decode w = .ok i ∧ ((∃ k, i = .prbsGen k) ∨ ∃ seed, i = .prbsSeed seed)

/-- R280: what a PRBS_GEN leaves in the register and answers depends on the register, the kind and the parameters alone,
and on the counter only when the register is zero. -/
def Obligations.PrbsGenReadsOnlyRegisterAndCounter : Prop :=
  ∀ (s₁ s₂ : State) (kind : BitVec 2), s₁.prg = s₂.prg → s₁.params = s₂.params →
    (s₁.prg ≠ 0#15 ∨ s₁.frc.toNat % 32768 = s₂.frc.toNat % 32768) →
    ∃ t₁ t₂, exec (.prbsGen kind) s₁ = .next t₁ ∧ exec (.prbsGen kind) s₂ = .next t₂ ∧
      t₁.prg = t₂.prg ∧ t₁.resp = t₂.resp

/-- R63: the rotating form steps as the logical register does, under the map of its bits. -/
def Obligations.RotatingFormImplementsTheRegister : Prop :=
  ∀ (r : Rotating) (l : BitVec 15), (∀ i : Fin 15, l.getLsbD i.val = r.bit i) →
    ∀ i : Fin 15, (genBit l).getLsbD i.val = r.step.bit i

/-! ## Encoding -/

/-- Decoding an encoded well-formed command gives it back, with every operand at every legal value (R103 to R106). -/
def Obligations.DecodeOfEncodeIsTheCommand : Prop := ∀ i : Instr, WellFormed i → decode (encode i) = .ok i

/-- A word that decodes is the word of the well-formed command it decodes to: no bit is ignored (R103, R107). -/
def Obligations.EncodeOfDecodeIsTheWord : Prop :=
  ∀ (w : Word) (i : Instr), decode w = .ok i → WellFormed i ∧ encode i = w

/-- R106: at most one row of the opcode table matches a word, and a word decodes exactly when it matches a row and its
selector or mode is legal. -/
def Obligations.DecodeAcceptsExactlyTheTablesWords : Prop :=
  ∀ w : Word,
    (∀ r₁ ∈ opcodeTable, ∀ r₂ ∈ opcodeTable, w &&& r₁.mask = r₁.pattern → w &&& r₂.mask = r₂.pattern → r₁ = r₂) ∧
    ((∃ i, decode w = .ok i) ↔ ∃ r ∈ opcodeTable, w &&& r.mask = r.pattern ∧
      (r.opcode = .fdeRd → w.toNat % 16 ≤ 6) ∧
      (r.opcode = .motMove → 1 ≤ w.toNat / 2 ^ 20 % 16 ∧ w.toNat / 2 ^ 20 % 16 ≤ 8) ∧
      (r.opcode = .motRd → w.toNat % 16 ≤ 4) ∧
      (r.opcode = .dbStat → w.toNat % 16 ≤ 2))

/-- R108: the reserved opcodes, whatever the body. -/
def Obligations.ReservedOpcodesAreRejected : Prop :=
  ∀ (op : BitVec 8) (body : BitVec 24),
    ((3 ≤ op.toNat ∧ op.toNat ≤ 0x0F) ∨ (0x12 ≤ op.toNat ∧ op.toNat ≤ 0x1F) ∨ (0x23 ≤ op.toNat ∧ op.toNat ≤ 0x2F) ∨
      (0x35 ≤ op.toNat ∧ op.toNat ≤ 0x3F) ∨ 0x43 ≤ op.toNat) →
    decode (op ++ body) = .error .reservedOpcode

/-- R110 to R113: a word with a reserved selector or mode is illegal, whatever its other bits; with the reserved bits
clear it is rejected by that name. -/
def Obligations.ReservedFieldValuesAreRejected : Prop :=
  ∀ (f m : BitVec 4) (bits : BitVec 20) (mod : BitVec 4) (d : BitVec 1) (th : BitVec 16),
    (7 ≤ f.toNat → (∃ e, decode (0x11#8 ++ bits ++ f) = .error e) ∧
      decode (0x11#8 ++ 0#4 ++ mod ++ 0#12 ++ f) = .error .reservedSelector) ∧
    (5 ≤ f.toNat → (∃ e, decode (0x22#8 ++ bits ++ f) = .error e) ∧
      decode (0x22#8 ++ 0#20 ++ f) = .error .reservedSelector) ∧
    (3 ≤ f.toNat → (∃ e, decode (0x33#8 ++ bits ++ f) = .error e) ∧
      decode (0x33#8 ++ 0#20 ++ f) = .error .reservedSelector) ∧
    ((m = 0#4 ∨ 9 ≤ m.toNat) → (∃ e, decode (0x20#8 ++ m ++ bits) = .error e) ∧
      decode (0x20#8 ++ m ++ 0#3 ++ d ++ th) = .error .reservedMode)

/-- The example encodings of R119, and one word of every other family. -/
def Obligations.ExampleWordsDecode : Prop :=
  decode 0x1002012C#32 = .ok (.fdeUpd 2 300) ∧ decode 0x20210190#32 = .ok (.motMove 2 true 400) ∧
  decode 0x2010000A#32 = .ok (.motMove 1 false 10) ∧ decode 0x31000005#32 = .ok (.dbStart 5) ∧
  decode 0x41001234#32 = .ok (.prbsSeed 0x1234) ∧ decode 0x40000002#32 = .ok (.prbsGen 2) ∧
  decode 0x02000000#32 = .ok .clrerr

/-- R117: the assembler never emits an illegal word. -/
def Obligations.AssemblerEmitsOnlyLegalWords : Prop :=
  ∀ (text : List Char) (ws : List Word), assemble text = .ok ws → ∀ w ∈ ws, ∃ i, decode w = .ok i

/-! ## The invariant -/

/-- Reset meets the invariant (R340, R35, R56). -/
def Obligations.ResetMeetsTheInvariant : Prop := State.reset.Inv

/-- Every step keeps the invariant, from every state that meets it, reachable or not. -/
def Obligations.StepKeepsTheInvariant : Prop := ∀ s t : State, s.Inv → step s = .next t → t.Inv
end

