-- ==== Sys2Proof/Laws/Decode.lean ====
section
/-! SUPPORT. The fields of a word that is laid out as an opcode and a body, and the opcode map. -/

namespace Sys2Proof

theorem opcodeOf_code (o : Opcode) : opcodeOf o.code = some o := by
  cases o <;> rfl

/-- The bits of `lo ++` keep their places: a field below `w` of `hi ++ lo` is a field of `lo`. -/
theorem field_append_low {v w start len : Nat} (hi : BitVec v) (lo : BitVec w) (h : start + len ≤ w) :
    (hi ++ lo).extractLsb' start len = lo.extractLsb' start len := by
  ext i hi'
  simp [BitVec.getLsbD_append, show start + i < w by omega]

/-- A field at or above `w` of `hi ++ lo` is a field of `hi`. -/
theorem field_append_high {v w start len : Nat} (hi : BitVec v) (lo : BitVec w) (h : w ≤ start) :
    (hi ++ lo).extractLsb' start len = hi.extractLsb' (start - w) len := by
  ext i hi'
  simp [BitVec.getLsbD_append, show ¬ start + i < w by omega, show start + i - w = start - w + i by omega]

/-- A word laid out in two parts, as a number. -/
theorem append_toNat {v w : Nat} (x : BitVec v) (y : BitVec w) : (x ++ y).toNat = x.toNat * 2 ^ w + y.toNat := by
  rw [BitVec.toNat_append, Nat.shiftLeft_eq, Nat.mul_comm, Nat.two_pow_add_eq_or_of_lt y.isLt]

/-- A word is its opcode and its body. -/
theorem word_split (w : Word) : opField w ++ field 0 24 w = w := by
  apply BitVec.eq_of_toNat_eq
  rw [append_toNat]
  simp only [BitVec.extractLsb'_toNat, Nat.shiftRight_eq_div_pow]
  omega

/-- A whole vector is its own field. -/
theorem field_whole {w : Nat} (v : BitVec w) : v.extractLsb' 0 w = v := by
  ext i hi
  simp

theorem opField_word (op : BitVec 8) (body : BitVec 24) : opField (op ++ body) = op := by
  have h := field_append_high (len := 8) op body (Nat.le_refl 24)
  rw [Nat.sub_self, field_whole] at h
  exact h

theorem body_word (op : BitVec 8) (body : BitVec 24) : field 0 24 (op ++ body) = body := by
  have h := field_append_low (start := 0) (len := 24) op body (by omega)
  rw [field_whole] at h
  exact h

/-- An OP value has the opcode that the map gives it. -/
theorem code_of_opcodeOf {op : BitVec 8} {o : Opcode} (h : opcodeOf op = some o) : o.code = op := by
  simpa using List.find?_some h

theorem opcode_encode (i : Instr) : opField (encode i) = i.opcode.code := opField_word _ _

theorem decode_encode_body (i : Instr) : decode (encode i) = decodeBody i.opcode (encode i) := by
  simp only [decode, opcode_encode, opcodeOf_code]

end Sys2Proof
end

