-- ==== Sys2Proof/Laws/Ops.lean ====
section
/-! SUPPORT. One lemma for each shared operation of Machine/Ops.lean, Operands.lean and Flags.lean: what it computes. -/

namespace Sys2Proof.Machine

/-! ### Saturating counters -/

theorem satInc_toNat {w : Nat} (v : BitVec w) : (satInc v).toNat = min (v.toNat + 1) (2 ^ w - 1) := by
  have : 0 < 2 ^ w := Nat.two_pow_pos w
  simp only [satInc, BitVec.toNat_ofNat]
  exact Nat.mod_eq_of_lt (by omega)

theorem satAdd_toNat {w : Nat} (u v : BitVec w) : (satAdd u v).toNat = min (u.toNat + v.toNat) (2 ^ w - 1) := by
  have : 0 < 2 ^ w := Nat.two_pow_pos w
  simp only [satAdd, BitVec.toNat_ofNat]
  exact Nat.mod_eq_of_lt (by omega)

/-! ### Rings by age -/

theorem shiftIn_zero {α : Type} {n : Nat} (x : α) (v : Vector α n) (h : 0 < n) : (shiftIn x v)[0] = x := by
  simp [shiftIn]

theorem shiftIn_succ {α : Type} {n : Nat} (x : α) (v : Vector α n) (i : Nat) (h : i + 1 < n) :
    (shiftIn x v)[i + 1] = v[i] := by
  simp [shiftIn]

/-! ### Signs -/

theorem sgn_eq_pos {d : Int} (h : 0 < d) : sgn d = .pos := by simp [sgn, h]

theorem sgn_eq_zero : sgn 0 = .zero := by decide

theorem sgn_eq_neg {d : Int} (h : d < 0) : sgn d = .neg := by
  simp [sgn, show ¬ 0 < d by omega, show ¬ d = 0 by omega]

/-! ### Records -/

theorem State.setModule_same (k : Fin 8) (f : FdeModule) (s : State) : (s.setModule k f).fde[k] = f := by
  simp [State.setModule]

theorem State.setModule_other {j k : Fin 8} (f : FdeModule) (s : State) (h : j ≠ k) :
    (s.setModule k f).fde[j] = s.fde[j] := by
  have : k.val ≠ j.val := fun e => h (Fin.ext e.symm)
  simp [State.setModule, this]

/-! ### Module ids -/

theorem moduleIndex_id (k : Fin 8) : moduleIndex (BitVec.ofNat 4 (k.val + 1)) = some k := by
  revert k
  decide

theorem moduleIndex_none (m : BitVec 4) (h : m.toNat = 0 ∨ 9 ≤ m.toNat) : moduleIndex m = none := by
  have : ¬ (1 ≤ m.toNat ∧ m.toNat ≤ 8) := by omega
  simp [moduleIndex, this]

/-! ### Codes -/

theorem Mode.ofCode_code (m : Mode) : Mode.ofCode m.code = some m := by
  cases m <;> rfl

/-- A legal MODE field names a mode, not STOP, and is its code. -/
theorem Mode.ofCode_legal {c : BitVec 4} (h : modeLegal c = true) :
    ∃ m, Mode.ofCode c = some m ∧ m ≠ .stop ∧ m.code = c := by
  have all : ∀ c : BitVec 4, modeLegal c = true → ∃ m ∈ [Mode.fwd, .rev, .pivotCw, .pivotCcw, .turnFr, .turnFl,
      .turnBr, .turnBl], Mode.ofCode c = some m ∧ m ≠ .stop ∧ m.code = c := by decide
  obtain ⟨m, -, hm⟩ := all c h
  exact ⟨m, hm⟩

theorem modeLegal_code {m : Mode} (h : m ≠ .stop) : 1 ≤ m.code.toNat ∧ m.code.toNat ≤ 8 := by
  cases m <;> simp_all [Mode.code]

/-! ### Levels -/

theorem levelDiff_toNat (a b : Half) : (levelDiff a b).toNat = ((a.toNat : Int) - (b.toNat : Int)).natAbs := by
  have ha := a.isLt
  have hb := b.isLt
  simp only [levelDiff, BitVec.toNat_ofNat]
  exact Nat.mod_eq_of_lt (by omega)

/-! ### Status words, as numbers -/

theorem Mps.statusWord_toNat (m : Mps) : m.statusWord.toNat =
    m.oe.toNat * 2 ^ 14 + m.ival.code.toNat * 2 ^ 12 + m.done.toNat * 2 ^ 11 + m.phase.toNat * 2 ^ 8 +
      m.prev.code.toNat * 2 ^ 4 + m.mode.code.toNat := by
  refine (append_toNat (0#17 ++ BitVec.ofBool m.oe ++ m.ival.code ++ BitVec.ofBool m.done ++ m.phase ++ m.prev.code)
    m.mode.code).trans ?_
  simp only [append_toNat, BitVec.toNat_ofBool, BitVec.toNat_ofNat]
  ring

theorem Dbu.statusWord_toNat (d : Dbu) : d.statusWord.toNat =
    d.bpin.toNat * 2 ^ 12 + d.spin.toNat * 2 ^ 8 + d.own.code.toNat * 2 ^ 4 + d.sstat.code.toNat := by
  refine (append_toNat (0#16 ++ d.bpin ++ d.spin ++ 0#2 ++ d.own.code ++ 0#2) d.sstat.code).trans ?_
  simp only [append_toNat, BitVec.toNat_ofNat]
  ring

/-! ### Turns -/

theorem State.nextTurn_scripted {s : State} {t : Turn} {rest : List Turn} (h : s.script = t :: rest) :
    s.nextTurn = t := by
  simp [State.nextTurn, h]

theorem State.nextTurn_free {s : State} (h : s.script = []) : s.nextTurn = Config.freeTurn s.turns := by
  simp [State.nextTurn, h]

end Sys2Proof.Machine
end

