-- ==== Sys2Proof/Laws/State.lean ====
section
/-! SUPPORT. One lemma per field of State and per update of Machine/Ops.lean and Machine/Debounce.lean, so that no proof
unfolds a record update. -/

namespace Sys2Proof.Machine.State

variable (s : State)

/-! ### respond -/

@[simp] theorem respond_resp (v : Word) : (s.respond v).resp = v := rfl
@[simp] theorem respond_err (v : Word) : (s.respond v).err = s.err := rfl
@[simp] theorem respond_fde (v : Word) : (s.respond v).fde = s.fde := rfl
@[simp] theorem respond_mps (v : Word) : (s.respond v).mps = s.mps := rfl
@[simp] theorem respond_dbu (v : Word) : (s.respond v).dbu = s.dbu := rfl
@[simp] theorem respond_held (v : Word) : (s.respond v).held = s.held := rfl
@[simp] theorem respond_prg (v : Word) : (s.respond v).prg = s.prg := rfl
@[simp] theorem respond_params (v : Word) : (s.respond v).params = s.params := rfl
@[simp] theorem respond_din (v : Word) : (s.respond v).din = s.din := rfl
@[simp] theorem respond_frc (v : Word) : (s.respond v).frc = s.frc := rfl
@[simp] theorem respond_cmds (v : Word) : (s.respond v).cmds = s.cmds := rfl
@[simp] theorem respond_script (v : Word) : (s.respond v).script = s.script := rfl
@[simp] theorem respond_turns (v : Word) : (s.respond v).turns = s.turns := rfl

/-! ### setErr -/

@[simp] theorem setErr_resp (v : Bool) : (s.setErr v).resp = s.resp := rfl
@[simp] theorem setErr_err (v : Bool) : (s.setErr v).err = v := rfl
@[simp] theorem setErr_fde (v : Bool) : (s.setErr v).fde = s.fde := rfl
@[simp] theorem setErr_mps (v : Bool) : (s.setErr v).mps = s.mps := rfl
@[simp] theorem setErr_dbu (v : Bool) : (s.setErr v).dbu = s.dbu := rfl
@[simp] theorem setErr_held (v : Bool) : (s.setErr v).held = s.held := rfl
@[simp] theorem setErr_prg (v : Bool) : (s.setErr v).prg = s.prg := rfl
@[simp] theorem setErr_params (v : Bool) : (s.setErr v).params = s.params := rfl
@[simp] theorem setErr_din (v : Bool) : (s.setErr v).din = s.din := rfl
@[simp] theorem setErr_frc (v : Bool) : (s.setErr v).frc = s.frc := rfl
@[simp] theorem setErr_cmds (v : Bool) : (s.setErr v).cmds = s.cmds := rfl
@[simp] theorem setErr_script (v : Bool) : (s.setErr v).script = s.script := rfl
@[simp] theorem setErr_turns (v : Bool) : (s.setErr v).turns = s.turns := rfl

/-! ### setModule -/

@[simp] theorem setModule_resp (k : Fin 8) (f : FdeModule) : (s.setModule k f).resp = s.resp := rfl
@[simp] theorem setModule_err (k : Fin 8) (f : FdeModule) : (s.setModule k f).err = s.err := rfl
@[simp] theorem setModule_fde (k : Fin 8) (f : FdeModule) : (s.setModule k f).fde = s.fde.set k f := rfl
@[simp] theorem setModule_mps (k : Fin 8) (f : FdeModule) : (s.setModule k f).mps = s.mps := rfl
@[simp] theorem setModule_dbu (k : Fin 8) (f : FdeModule) : (s.setModule k f).dbu = s.dbu := rfl
@[simp] theorem setModule_held (k : Fin 8) (f : FdeModule) : (s.setModule k f).held = s.held := rfl
@[simp] theorem setModule_prg (k : Fin 8) (f : FdeModule) : (s.setModule k f).prg = s.prg := rfl
@[simp] theorem setModule_params (k : Fin 8) (f : FdeModule) : (s.setModule k f).params = s.params := rfl
@[simp] theorem setModule_din (k : Fin 8) (f : FdeModule) : (s.setModule k f).din = s.din := rfl
@[simp] theorem setModule_frc (k : Fin 8) (f : FdeModule) : (s.setModule k f).frc = s.frc := rfl
@[simp] theorem setModule_cmds (k : Fin 8) (f : FdeModule) : (s.setModule k f).cmds = s.cmds := rfl
@[simp] theorem setModule_script (k : Fin 8) (f : FdeModule) : (s.setModule k f).script = s.script := rfl
@[simp] theorem setModule_turns (k : Fin 8) (f : FdeModule) : (s.setModule k f).turns = s.turns := rfl

/-! ### setMps -/

@[simp] theorem setMps_resp (m : Mps) : (s.setMps m).resp = s.resp := rfl
@[simp] theorem setMps_err (m : Mps) : (s.setMps m).err = s.err := rfl
@[simp] theorem setMps_fde (m : Mps) : (s.setMps m).fde = s.fde := rfl
@[simp] theorem setMps_mps (m : Mps) : (s.setMps m).mps = m := rfl
@[simp] theorem setMps_dbu (m : Mps) : (s.setMps m).dbu = s.dbu := rfl
@[simp] theorem setMps_held (m : Mps) : (s.setMps m).held = s.held := rfl
@[simp] theorem setMps_prg (m : Mps) : (s.setMps m).prg = s.prg := rfl
@[simp] theorem setMps_params (m : Mps) : (s.setMps m).params = s.params := rfl
@[simp] theorem setMps_din (m : Mps) : (s.setMps m).din = s.din := rfl
@[simp] theorem setMps_frc (m : Mps) : (s.setMps m).frc = s.frc := rfl
@[simp] theorem setMps_cmds (m : Mps) : (s.setMps m).cmds = s.cmds := rfl
@[simp] theorem setMps_script (m : Mps) : (s.setMps m).script = s.script := rfl
@[simp] theorem setMps_turns (m : Mps) : (s.setMps m).turns = s.turns := rfl

/-! ### setDbu -/

@[simp] theorem setDbu_resp (d : Dbu) : (s.setDbu d).resp = s.resp := rfl
@[simp] theorem setDbu_err (d : Dbu) : (s.setDbu d).err = s.err := rfl
@[simp] theorem setDbu_fde (d : Dbu) : (s.setDbu d).fde = s.fde := rfl
@[simp] theorem setDbu_mps (d : Dbu) : (s.setDbu d).mps = s.mps := rfl
@[simp] theorem setDbu_dbu (d : Dbu) : (s.setDbu d).dbu = d := rfl
@[simp] theorem setDbu_held (d : Dbu) : (s.setDbu d).held = s.held := rfl
@[simp] theorem setDbu_prg (d : Dbu) : (s.setDbu d).prg = s.prg := rfl
@[simp] theorem setDbu_params (d : Dbu) : (s.setDbu d).params = s.params := rfl
@[simp] theorem setDbu_din (d : Dbu) : (s.setDbu d).din = s.din := rfl
@[simp] theorem setDbu_frc (d : Dbu) : (s.setDbu d).frc = s.frc := rfl
@[simp] theorem setDbu_cmds (d : Dbu) : (s.setDbu d).cmds = s.cmds := rfl
@[simp] theorem setDbu_script (d : Dbu) : (s.setDbu d).script = s.script := rfl
@[simp] theorem setDbu_turns (d : Dbu) : (s.setDbu d).turns = s.turns := rfl

/-! ### setHeld -/

@[simp] theorem setHeld_resp (v : Bool) : (s.setHeld v).resp = s.resp := rfl
@[simp] theorem setHeld_err (v : Bool) : (s.setHeld v).err = s.err := rfl
@[simp] theorem setHeld_fde (v : Bool) : (s.setHeld v).fde = s.fde := rfl
@[simp] theorem setHeld_mps (v : Bool) : (s.setHeld v).mps = s.mps := rfl
@[simp] theorem setHeld_dbu (v : Bool) : (s.setHeld v).dbu = s.dbu := rfl
@[simp] theorem setHeld_held (v : Bool) : (s.setHeld v).held = v := rfl
@[simp] theorem setHeld_prg (v : Bool) : (s.setHeld v).prg = s.prg := rfl
@[simp] theorem setHeld_params (v : Bool) : (s.setHeld v).params = s.params := rfl
@[simp] theorem setHeld_din (v : Bool) : (s.setHeld v).din = s.din := rfl
@[simp] theorem setHeld_frc (v : Bool) : (s.setHeld v).frc = s.frc := rfl
@[simp] theorem setHeld_cmds (v : Bool) : (s.setHeld v).cmds = s.cmds := rfl
@[simp] theorem setHeld_script (v : Bool) : (s.setHeld v).script = s.script := rfl
@[simp] theorem setHeld_turns (v : Bool) : (s.setHeld v).turns = s.turns := rfl

/-! ### setPrg -/

@[simp] theorem setPrg_resp (l : BitVec 15) : (s.setPrg l).resp = s.resp := rfl
@[simp] theorem setPrg_err (l : BitVec 15) : (s.setPrg l).err = s.err := rfl
@[simp] theorem setPrg_fde (l : BitVec 15) : (s.setPrg l).fde = s.fde := rfl
@[simp] theorem setPrg_mps (l : BitVec 15) : (s.setPrg l).mps = s.mps := rfl
@[simp] theorem setPrg_dbu (l : BitVec 15) : (s.setPrg l).dbu = s.dbu := rfl
@[simp] theorem setPrg_held (l : BitVec 15) : (s.setPrg l).held = s.held := rfl
@[simp] theorem setPrg_prg (l : BitVec 15) : (s.setPrg l).prg = l := rfl
@[simp] theorem setPrg_params (l : BitVec 15) : (s.setPrg l).params = s.params := rfl
@[simp] theorem setPrg_din (l : BitVec 15) : (s.setPrg l).din = s.din := rfl
@[simp] theorem setPrg_frc (l : BitVec 15) : (s.setPrg l).frc = s.frc := rfl
@[simp] theorem setPrg_cmds (l : BitVec 15) : (s.setPrg l).cmds = s.cmds := rfl
@[simp] theorem setPrg_script (l : BitVec 15) : (s.setPrg l).script = s.script := rfl
@[simp] theorem setPrg_turns (l : BitVec 15) : (s.setPrg l).turns = s.turns := rfl

/-! ### raiseIllegal -/

@[simp] theorem raiseIllegal_resp : (s.raiseIllegal).resp = 0x80000001#32 := rfl
@[simp] theorem raiseIllegal_err : (s.raiseIllegal).err = true := rfl
@[simp] theorem raiseIllegal_fde : (s.raiseIllegal).fde = s.fde := rfl
@[simp] theorem raiseIllegal_mps : (s.raiseIllegal).mps = s.mps := rfl
@[simp] theorem raiseIllegal_dbu : (s.raiseIllegal).dbu = s.dbu := rfl
@[simp] theorem raiseIllegal_held : (s.raiseIllegal).held = s.held := rfl
@[simp] theorem raiseIllegal_prg : (s.raiseIllegal).prg = s.prg := rfl
@[simp] theorem raiseIllegal_params : (s.raiseIllegal).params = s.params := rfl
@[simp] theorem raiseIllegal_din : (s.raiseIllegal).din = s.din := rfl
@[simp] theorem raiseIllegal_frc : (s.raiseIllegal).frc = s.frc := rfl
@[simp] theorem raiseIllegal_cmds : (s.raiseIllegal).cmds = s.cmds := rfl
@[simp] theorem raiseIllegal_script : (s.raiseIllegal).script = s.script := rfl
@[simp] theorem raiseIllegal_turns : (s.raiseIllegal).turns = s.turns := rfl

/-! ### clearError -/

@[simp] theorem clearError_resp : (s.clearError).resp = s.resp := rfl
@[simp] theorem clearError_err : (s.clearError).err = false := rfl
@[simp] theorem clearError_fde : (s.clearError).fde = s.fde := rfl
@[simp] theorem clearError_mps : (s.clearError).mps = s.mps := rfl
@[simp] theorem clearError_dbu : (s.clearError).dbu = s.dbu := rfl
@[simp] theorem clearError_held : (s.clearError).held = s.held := rfl
@[simp] theorem clearError_prg : (s.clearError).prg = s.prg := rfl
@[simp] theorem clearError_params : (s.clearError).params = s.params := rfl
@[simp] theorem clearError_din : (s.clearError).din = s.din := rfl
@[simp] theorem clearError_frc : (s.clearError).frc = s.frc := rfl
@[simp] theorem clearError_cmds : (s.clearError).cmds = s.cmds := rfl
@[simp] theorem clearError_script : (s.clearError).script = s.script := rfl
@[simp] theorem clearError_turns : (s.clearError).turns = s.turns := rfl

/-! ### takeTurn -/

@[simp] theorem takeTurn_resp : (s.takeTurn).resp = s.resp := rfl
@[simp] theorem takeTurn_err : (s.takeTurn).err = s.err := rfl
@[simp] theorem takeTurn_fde : (s.takeTurn).fde = s.fde := rfl
@[simp] theorem takeTurn_mps : (s.takeTurn).mps = s.mps := rfl
@[simp] theorem takeTurn_dbu : (s.takeTurn).dbu = s.dbu := rfl
@[simp] theorem takeTurn_held : (s.takeTurn).held = s.held := rfl
@[simp] theorem takeTurn_prg : (s.takeTurn).prg = s.prg := rfl
@[simp] theorem takeTurn_params : (s.takeTurn).params = s.params := rfl
@[simp] theorem takeTurn_din : (s.takeTurn).din = s.nextTurn.din := rfl
@[simp] theorem takeTurn_frc : (s.takeTurn).frc = s.nextTurn.frc := rfl
@[simp] theorem takeTurn_cmds : (s.takeTurn).cmds = s.cmds := rfl
@[simp] theorem takeTurn_script : (s.takeTurn).script = s.script.tail := rfl
@[simp] theorem takeTurn_turns : (s.takeTurn).turns = s.turns + 1 := rfl

/-! ### dropWrite -/

@[simp] theorem dropWrite_resp : (s.dropWrite).resp = s.resp := rfl
@[simp] theorem dropWrite_err : (s.dropWrite).err = s.err := rfl
@[simp] theorem dropWrite_fde : (s.dropWrite).fde = s.fde := rfl
@[simp] theorem dropWrite_mps : (s.dropWrite).mps = s.mps := rfl
@[simp] theorem dropWrite_dbu : (s.dropWrite).dbu = s.dbu := rfl
@[simp] theorem dropWrite_held : (s.dropWrite).held = s.held := rfl
@[simp] theorem dropWrite_prg : (s.dropWrite).prg = s.prg := rfl
@[simp] theorem dropWrite_params : (s.dropWrite).params = s.params := rfl
@[simp] theorem dropWrite_din : (s.dropWrite).din = s.din := rfl
@[simp] theorem dropWrite_frc : (s.dropWrite).frc = s.frc := rfl
@[simp] theorem dropWrite_cmds : (s.dropWrite).cmds = s.cmds.tail := rfl
@[simp] theorem dropWrite_script : (s.dropWrite).script = s.script := rfl
@[simp] theorem dropWrite_turns : (s.dropWrite).turns = s.turns := rfl

/-! ### completeBlocking -/

@[simp] theorem completeBlocking_resp (v : Word) : (s.completeBlocking v).resp = v := rfl
@[simp] theorem completeBlocking_err (v : Word) : (s.completeBlocking v).err = s.err := rfl
@[simp] theorem completeBlocking_fde (v : Word) : (s.completeBlocking v).fde = s.fde := rfl
@[simp] theorem completeBlocking_mps (v : Word) : (s.completeBlocking v).mps = s.mps := rfl
@[simp] theorem completeBlocking_dbu (v : Word) : (s.completeBlocking v).dbu = s.dbu.release := rfl
@[simp] theorem completeBlocking_held (v : Word) : (s.completeBlocking v).held = false := rfl
@[simp] theorem completeBlocking_prg (v : Word) : (s.completeBlocking v).prg = s.prg := rfl
@[simp] theorem completeBlocking_params (v : Word) : (s.completeBlocking v).params = s.params := rfl
@[simp] theorem completeBlocking_din (v : Word) : (s.completeBlocking v).din = s.din := rfl
@[simp] theorem completeBlocking_frc (v : Word) : (s.completeBlocking v).frc = s.frc := rfl
@[simp] theorem completeBlocking_cmds (v : Word) : (s.completeBlocking v).cmds = s.cmds := rfl
@[simp] theorem completeBlocking_script (v : Word) : (s.completeBlocking v).script = s.script := rfl
@[simp] theorem completeBlocking_turns (v : Word) : (s.completeBlocking v).turns = s.turns := rfl

/-! ### externalReset -/

@[simp] theorem externalReset_resp : (s.externalReset).resp = 0#32 := rfl
@[simp] theorem externalReset_err : (s.externalReset).err = false := rfl
@[simp] theorem externalReset_fde : (s.externalReset).fde = Vector.replicate 8 FdeModule.reset := rfl
@[simp] theorem externalReset_mps : (s.externalReset).mps = Mps.reset := rfl
@[simp] theorem externalReset_dbu : (s.externalReset).dbu = Dbu.reset := rfl
@[simp] theorem externalReset_held : (s.externalReset).held = false := rfl
@[simp] theorem externalReset_prg : (s.externalReset).prg = 0#15 := rfl
@[simp] theorem externalReset_params : (s.externalReset).params = s.params := rfl
@[simp] theorem externalReset_din : (s.externalReset).din = s.din := rfl
@[simp] theorem externalReset_frc : (s.externalReset).frc = s.frc := rfl
@[simp] theorem externalReset_cmds : (s.externalReset).cmds = s.cmds := rfl
@[simp] theorem externalReset_script : (s.externalReset).script = s.script := rfl
@[simp] theorem externalReset_turns : (s.externalReset).turns = s.turns := rfl

end Sys2Proof.Machine.State
end

