-- ==== Sys2Proof/Laws/Meanings.lean ====
section
/-! SUPPORT. What the meanings' shared parts can do: an FDE update field by field, a move, a motor tick and a debounce
advance by cases. Callers cite these and do not unfold the definitions. -/

namespace Sys2Proof.Machine

/-! ### An FDE update, field by field -/

namespace FdeModule

variable (rot : Bool) (steps x : Half) (f : FdeModule)

@[simp] theorem push_idle : (f.push x).idle = f.idle := by simp only [push]
@[simp] theorem push_log0 : (f.push x).log0 = f.log0 := by simp only [push]
@[simp] theorem push_log1 : (f.push x).log1 = f.log1 := by simp only [push]
@[simp] theorem push_result : (f.push x).result = f.result := by simp only [push]

/-- An update writes the rings only by its push. -/
theorem update_samples : (f.update rot steps x).samples = shiftIn x f.samples := by
  simp only [update, expire, assess, logIdle]
  repeat' split
  all_goals rfl

theorem update_grads : (f.update rot steps x).grads =
    shiftIn (sgn ((x.toNat : Int) - (f.samples[0].toNat : Int))) f.grads := by
  simp only [update, expire, assess, logIdle]
  repeat' split
  all_goals rfl

/-- IDLE is 0 after a confirmation and counts up otherwise; the timeout does not touch it. -/
theorem update_idle : (f.update rot steps x).idle = if (f.push x).confirmed then 0#8 else satInc f.idle := by
  simp only [update, expire, assess, logIdle]
  repeat' split
  all_goals simp_all

end FdeModule

/-! ### FDE commands on a module id -/

theorem execFdeUpd_id (k : Fin 8) (x : Half) (s : State) :
    execFdeUpd (BitVec.ofNat 4 (k.val + 1)) x s =
      .next ((s.setModule k (s.fde[k].update (isRotation k) s.mps.steps x)).respond
        (zext (s.fde[k].update (isRotation k) s.mps.steps x).result)) := by
  simp only [execFdeUpd, moduleIndex_id]

theorem execFdeUpd_none {m : BitVec 4} (h : m.toNat = 0 ∨ 9 ≤ m.toNat) (x : Half) (s : State) :
    execFdeUpd m x s = .next (s.respond 0#32) := by
  simp only [execFdeUpd, moduleIndex_none m h]

/-! ### Every command goes on -/

theorem exec_goes_on (i : Instr) (s : State) : ∃ t, exec i s = .next t := by
  cases i <;> exact ⟨_, rfl⟩

/-! ### The motor tick by cases -/

/-- A tick ends the maneuver, counts down, or only advances. -/
theorem Mps.tick_cases (m : Mps) :
    (m.advance.steps = m.thresh ∧ m.tick = m.advance.forcedStop) ∨
    (m.advance.steps ≠ m.thresh ∧ m.cdown ≠ 0#16 ∧ m.tick = m.advance.countDown) ∨
    (m.advance.steps ≠ m.thresh ∧ m.cdown = 0#16 ∧ m.tick = m.advance) := by
  have ht : m.advance.thresh = m.thresh := rfl
  have hc : m.advance.cdown = m.cdown := rfl
  simp only [Mps.tick, ht, hc]
  by_cases h1 : m.advance.steps = m.thresh
  · exact .inl ⟨h1, if_pos h1⟩
  · by_cases h2 : m.cdown = 0#16
    · exact .inr (.inr ⟨h1, h2, by rw [if_neg h1, if_neg (by simpa using h2)]⟩)
    · exact .inr (.inl ⟨h1, h2, by rw [if_neg h1, if_pos h2]⟩)

@[simp] theorem Mps.advance_phase (m : Mps) : m.advance.phase = m.phase + 1#3 := rfl

theorem Mps.advance_steps (m : Mps) : m.advance.steps.toNat = min (m.steps.toNat + 1) 65535 := satInc_toNat m.steps

/-- A countdown step either ends the countdown and goes FAST, or only counts. -/
theorem Mps.countDown_cases (m : Mps) :
    (m.cdown = 1#16 ∧ m.countDown = { m with cdown := 0#16, ival := .fast, oe := true }) ∨
    (m.cdown ≠ 1#16 ∧ m.countDown = { m with cdown := m.cdown - 1#16 }) := by
  by_cases h : m.cdown - 1#16 = 0#16
  · refine .inl ⟨?_, by simp only [Mps.countDown, h, if_true]⟩
    simpa using congrArg (fun v => v + 1#16) h
  · refine .inr ⟨fun e => h (by rw [e]; rfl), by simp only [Mps.countDown, h, if_false]⟩

/-- The output stage is bit 6 of `mout` (10_state.md R52). -/
theorem Mps.mout_oe (m : Mps) : m.mout.getLsbD 6 = m.oe := by
  rw [Mps.mout, BitVec.getLsbD_append]
  simp

/-! ### A debounce advance by cases -/

/-- An advance of a running session fails on a due low sample; otherwise NEXT moves on if a sample was due, and the window
test decides. -/
theorem Dbu.advance_cases (p : Params) (level : Bool) (d : Dbu) (h : d.sstat = .running) :
    (d.nextAt.toNat ≤ d.dbt.toNat ∧ level = false ∧ d.advance p level = d.finish .failed) ∨
    (d.nextAt.toNat ≤ d.dbt.toNat ∧ level = true ∧
      d.advance p level = ({ d with nextAt := satAdd d.nextAt p.nbInc } : Dbu).windowTest p.nbWindow) ∨
    (d.dbt.toNat < d.nextAt.toNat ∧ d.advance p level = d.windowTest p.nbWindow) := by
  by_cases hd : d.nextAt.toNat ≤ d.dbt.toNat
  · cases level
    · exact .inl ⟨hd, rfl, by simp [Dbu.advance, h, hd]⟩
    · exact .inr (.inl ⟨hd, rfl, by simp [Dbu.advance, h, hd]⟩)
  · exact .inr (.inr ⟨by omega, by simp only [Dbu.advance, h, if_true, if_neg hd]⟩)

theorem Dbu.windowTest_elapsed {w : Half} {d : Dbu} (h : w.toNat ≤ d.dbt.toNat) :
    d.windowTest w = d.finish .succeeded := if_pos h

theorem Dbu.windowTest_running {w : Half} {d : Dbu} (h : d.dbt.toNat < w.toNat) : d.windowTest w = d :=
  if_neg (by omega)

/-! ### The debounce tick by cases -/

/-- A tick counts; a blocking call may also complete, with 0 on a low sample and with 1 at the end of its window. -/
theorem State.debounceTick_cases (s : State) :
    (s.dbu.own ≠ .blocking ∧ s.debounceTick = s.setDbu s.dbu.count) ∨
    (s.dbu.own = .blocking ∧ s.sample s.dbu.bpin = false ∧
      s.debounceTick = (s.setDbu s.dbu.count).completeBlocking 0#32) ∨
    (s.dbu.own = .blocking ∧ s.sample s.dbu.bpin = true ∧ s.params.blkWindow.toNat ≤ (satInc s.dbu.dbt).toNat ∧
      s.debounceTick = (s.setDbu s.dbu.count).completeBlocking 1#32) ∨
    (s.dbu.own = .blocking ∧ s.sample s.dbu.bpin = true ∧ (satInc s.dbu.dbt).toNat < s.params.blkWindow.toNat ∧
      s.debounceTick = s.setDbu s.dbu.count) := by
  have ho : (s.setDbu s.dbu.count).dbu.own = s.dbu.own := rfl
  have hp : (s.setDbu s.dbu.count).sample (s.setDbu s.dbu.count).dbu.bpin = s.sample s.dbu.bpin := rfl
  have hw : (s.setDbu s.dbu.count).params.blkWindow = s.params.blkWindow := rfl
  have hd : (s.setDbu s.dbu.count).dbu.dbt = satInc s.dbu.dbt := rfl
  simp only [State.debounceTick, ho, hp, hw, hd]
  by_cases h : s.dbu.own = .blocking
  · cases hs : s.sample s.dbu.bpin
    · exact .inr (.inl ⟨h, rfl, by simp [h]⟩)
    · by_cases hn : s.params.blkWindow.toNat ≤ (satInc s.dbu.dbt).toNat
      · exact .inr (.inr (.inl ⟨h, rfl, hn, by simp [h, hn]⟩))
      · exact .inr (.inr (.inr ⟨h, rfl, by omega, by simp [h, hn]⟩))
  · exact .inl ⟨h, by simp [h]⟩

end Sys2Proof.Machine
end

