-- ==== Sys2Proof/Laws/Fde.lean ====
section
/-! SUPPORT. What the tests and the stages of an FDE update amount to (40_fde.md R142 to R150), for callers to cite. -/

namespace Sys2Proof.Machine

/-! ### The tests, as propositions -/

/-- A gradient sum of ten ages is the sum over those ages. -/
theorem gradSum_eq (g : Vector Sign 20) (lo : Nat) (h : lo + 10 ≤ 20) :
    gradSum lo g = ∑ a : Fin 10, (g[lo + a.val]).toInt := by
  have e : (g.toList.drop lo).take 10 = List.ofFn (fun a : Fin 10 => g[lo + a.val]) := by
    apply List.ext_getElem
    · simp
      omega
    · intro i h1 h2
      rw [List.getElem_take, List.getElem_drop, List.getElem_ofFn, Vector.getElem_toList]
  rw [gradSum, e, List.map_ofFn, List.sum_ofFn]
  rfl

theorem reversal_iff (l r : Int) : reversal l r = true ↔ (5 < l ∧ r < -5) ∨ (l < -5 ∧ 5 < r) := decide_eq_true_iff

theorem inWindow_iff (l : LogSlot) : l.inWindow = true ↔ 18 ≤ l.age.toNat ∧ l.age.toNat ≤ 25 := decide_eq_true_iff

theorem timeoutDue_iff (k : Fin 8) (steps : Half) (idle : BitVec 8) :
    timeoutDue (isRotation k) steps idle = true ↔ 42 ≤ idle.toNat ∧ (k.val < 6 ∨ 300 < steps.toNat) := by
  simp only [timeoutDue, isRotation, Config.timeout, Config.rotSuppress]
  simp

theorem isRotation_false {k : Fin 8} (h : k.val < 6) : isRotation k = false := by
  simp [isRotation]
  omega

theorem isRotation_true {k : Fin 8} (h : 6 ≤ k.val) : isRotation k = true := by simp [isRotation, h]

namespace FdeModule

/-! ### The stages, field by field -/

theorem logIdle_true (f : FdeModule) :
    f.logIdle true = { f with log0 := f.log1, log1 := ⟨f.samples[10], f.idle⟩, idle := 0#8 } := rfl

theorem logIdle_false (f : FdeModule) : f.logIdle false = { f with idle := satInc f.idle } := rfl

@[simp] theorem assess_idle (rot c : Bool) (f : FdeModule) : (f.assess rot c).idle = f.idle := by
  cases rot <;> cases c <;> rfl

@[simp] theorem assess_log0 (rot c : Bool) (f : FdeModule) : (f.assess rot c).log0 = f.log0 := by
  cases rot <;> cases c <;> rfl

@[simp] theorem assess_log1 (rot c : Bool) (f : FdeModule) : (f.assess rot c).log1 = f.log1 := by
  cases rot <;> cases c <;> rfl

@[simp] theorem assess_samples (rot c : Bool) (f : FdeModule) : (f.assess rot c).samples = f.samples := by
  cases rot <;> cases c <;> rfl

theorem assess_collision (c : Bool) (f : FdeModule) :
    (f.assess false c).result = collisionResult f.log0 f.log1 := by
  cases c <;> rfl

theorem assess_rotation (c : Bool) (f : FdeModule) : (f.assess true c).result = if c then 1#16 else f.result := by
  cases c <;> rfl

@[simp] theorem expire_idle (rot : Bool) (steps : Half) (f : FdeModule) : (f.expire rot steps).idle = f.idle := by
  unfold expire
  split <;> rfl

/-! ### An update either expires or not -/

variable (rot : Bool) (steps x : Half) (f : FdeModule)

/-- An update whose timeout is due leaves log and result clear. -/
theorem update_expired (h : timeoutDue rot steps (f.update rot steps x).idle = true) :
    (f.update rot steps x).log0 = ⟨0#16, 0#8⟩ ∧ (f.update rot steps x).log1 = ⟨0#16, 0#8⟩ ∧
      (f.update rot steps x).result = 0#16 := by
  simp only [update, expire_idle] at h
  rw [update, expire, if_pos h]
  refine ⟨?_, ?_, ?_⟩ <;> rfl

/-- An update whose timeout is not due ends with its result stage. -/
theorem update_unexpired (h : timeoutDue rot steps (f.update rot steps x).idle = false) :
    f.update rot steps x = ((f.push x).logIdle (f.push x).confirmed).assess rot (f.push x).confirmed := by
  simp only [update, expire_idle] at h
  simp only [update, expire, h]
  rfl

/-- An update that cannot bring IDLE to the timeout does not depend on the step count. -/
theorem update_below_timeout (steps' : Half) (h : f.idle.toNat ≤ 40) : f.update rot steps x = f.update rot steps' x := by
  have due (n : Half) : timeoutDue rot n (f.update rot n x).idle = false := by
    rw [update_idle]
    split <;> simp [timeoutDue, Config.timeout, satInc_toNat]
    omega
  rw [update_unexpired rot steps x f (due steps), update_unexpired rot steps' x f (due steps')]

/-- Inside the refractory interval an update only counts: nothing is logged and nothing expires. -/
theorem update_refractory (h : f.idle.toNat ≤ 11) :
    (f.update rot steps x).idle.toNat = f.idle.toNat + 1 ∧ (f.update rot steps x).log0 = f.log0 ∧
      (f.update rot steps x).log1 = f.log1 := by
  have hc : (f.push x).confirmed = false := by
    simp [confirmed, Config.refract]
    omega
  have hi : (f.update rot steps x).idle.toNat = f.idle.toNat + 1 := by
    rw [update_idle, hc]
    simp [satInc_toNat]
    omega
  have ht : timeoutDue rot steps (f.update rot steps x).idle = false := by
    simp [timeoutDue, Config.timeout]
    omega
  refine ⟨hi, ?_⟩
  rw [update_unexpired rot steps x f ht, hc, logIdle_false]
  simp

end FdeModule

end Sys2Proof.Machine
end

