-- ==== Sys2Proof/Laws/PerInstr.lean ====
section
/-! SUPPORT. Facts about every command, stated per constructor of Instr (LAWS.json names the families). -/

namespace Sys2Proof.Laws.OpcodeByte

/-- The top byte of a command's word is the OP value that names it (30_encoding.md R102, R105). -/
def Statement (i : Instr) : Prop := opcodeOf (opField (encode i)) = some i.opcode

theorem holds (i : Instr) : Statement i := by
  unfold Statement
  rw [opcode_encode, opcodeOf_code]

theorem nop : Statement .nop := holds _
theorem status : Statement .status := holds _
theorem clrerr : Statement .clrerr := holds _
theorem fdeUpd (mod : BitVec 4) (sample : Half) : Statement (.fdeUpd mod sample) := holds _
theorem fdeRd (mod : BitVec 4) (sel : BitVec 4) : Statement (.fdeRd mod sel) := holds _
theorem motMove (mode : BitVec 4) (deferred : Bool) (thresh : Half) : Statement (.motMove mode deferred thresh) :=
  holds _
theorem motStop : Statement .motStop := holds _
theorem motRd (sel : BitVec 4) : Statement (.motRd sel) := holds _
theorem dbBlk (pin : BitVec 4) : Statement (.dbBlk pin) := holds _
theorem dbStart (pin : BitVec 4) : Statement (.dbStart pin) := holds _
theorem dbAdv : Statement .dbAdv := holds _
theorem dbStat (sel : BitVec 4) : Statement (.dbStat sel) := holds _
theorem dbClr : Statement .dbClr := holds _
theorem prbsGen (kind : BitVec 2) : Statement (.prbsGen kind) := holds _
theorem prbsSeed (seed : BitVec 15) : Statement (.prbsSeed seed) := holds _
theorem prbsRd : Statement .prbsRd := holds _

end Sys2Proof.Laws.OpcodeByte
end

