-- ==== Sys2Proof/Laws/Prbs.lean ====
section
/-! SUPPORT. The LFSR step (43_prbs.md R271): its bits, its value as a number, its linearity, and runs of steps. -/

namespace Sys2Proof.Machine

/-- The fresh bit enters at the bottom. -/
theorem genBit_zero_bit (l : BitVec 15) : (genBit l).getLsbD 0 = (l.getLsbD 14 ^^ l.getLsbD 13) := by
  rw [genBit, BitVec.getLsbD_append]
  simp

/-- Every other bit is the one below it before the step. -/
theorem genBit_succ_bit (l : BitVec 15) (i : Nat) (h : i < 14) : (genBit l).getLsbD (i + 1) = l.getLsbD i := by
  rw [genBit, BitVec.getLsbD_append]
  simp [h]

theorem genBit_toNat (l : BitVec 15) :
    (genBit l).toNat = 2 * l.toNat % 32768 + (l.getLsbD 14 ^^ l.getLsbD 13).toNat := by
  rw [genBit, append_toNat]
  simp only [BitVec.extractLsb'_toNat, BitVec.toNat_ofBool]
  simp
  omega

/-- The step is linear over exclusive-or. -/
theorem genBit_xor (a b : BitVec 15) : genBit (a ^^^ b) = genBit a ^^^ genBit b := by
  apply BitVec.eq_of_getLsbD_eq
  intro i hi
  cases i with
  | zero =>
    simp only [BitVec.getLsbD_xor, genBit_zero_bit]
    cases a.getLsbD 14 <;> cases b.getLsbD 14 <;> cases a.getLsbD 13 <;> cases b.getLsbD 13 <;> rfl
  | succ i => simp only [BitVec.getLsbD_xor, genBit_succ_bit _ i (by omega)]

theorem genBits_add (m n : Nat) (l : BitVec 15) : genBits (m + n) l = genBits n (genBits m l) := by
  induction m generalizing l with
  | zero => rw [Nat.zero_add, genBits]
  | succ m ih => rw [Nat.succ_add, genBits, genBits, ih]

theorem genBits_xor (n : Nat) (a b : BitVec 15) : genBits n (a ^^^ b) = genBits n a ^^^ genBits n b := by
  induction n generalizing a b with
  | zero => rfl
  | succ n ih => rw [genBits, genBits, genBits, genBit_xor, ih]

/-- A nonzero register needs no reseeding. -/
theorem reseed_nonzero {l : BitVec 15} (h : l ≠ 0#15) (fallback : BitVec 15) (frc : Half) :
    reseed fallback frc l = l := by
  rw [reseed, if_neg h]

end Sys2Proof.Machine
end

