-- ==== Sys2Proof/Laws/Step.lean ====
section
/-! SUPPORT. What one step can do, said once: by the agent whose turn it is. -/

namespace Sys2Proof.Machine

variable {s t : State}

/-- The HOST's turn with a word due: the word leaves the queue and is issued. -/
theorem step_host_word {w : Word} {rest : List HostWrite} (ha : s.nextTurn.agent = .host) (hh : s.held = false)
    (hc : s.cmds = .word w :: rest) : step s = s.takeTurn.dropWrite.issue w := by
  simp [step, ha, State.act, State.hostTurn, hh, hc]

theorem step_host_held (ha : s.nextTurn.agent = .host) (hh : s.held = true) : step s = .next s.takeTurn := by
  simp [step, ha, State.act, State.hostTurn, hh]

theorem step_host_idle (ha : s.nextTurn.agent = .host) (hc : s.cmds = []) : step s = .next s.takeTurn := by
  cases hh : s.held <;> simp [step, ha, State.act, State.hostTurn, hh, hc]

theorem step_mtimer (ha : s.nextTurn.agent = .mtimer) : step s = .next s.takeTurn.motorTurn := by
  simp [step, ha, State.act]

theorem step_dbtimer (ha : s.nextTurn.agent = .dbtimer) : step s = .next s.takeTurn.debounceTurn := by
  simp [step, ha, State.act]

theorem step_env (ha : s.nextTurn.agent = .env) : step s = .next s.takeTurn := by
  simp [step, ha, State.act]

theorem step_reset (ha : s.nextTurn.agent = .resetLine) : step s = .next s.takeTurn.externalReset := by
  simp [step, ha, State.act]

/-- If a step answers a next state, one of these happened. -/
theorem step_cases (h : step s = .next t) :
    (s.nextTurn.agent = .host ∧ (s.held = true ∨ s.cmds = []) ∧ t = s.takeTurn) ∨
    (s.nextTurn.agent = .host ∧ s.held = false ∧
      ∃ w rest, s.cmds = .word w :: rest ∧ s.takeTurn.dropWrite.issue w = .next t) ∨
    (s.nextTurn.agent = .mtimer ∧ t = s.takeTurn.motorTurn) ∨
    (s.nextTurn.agent = .dbtimer ∧ t = s.takeTurn.debounceTurn) ∨
    (s.nextTurn.agent = .env ∧ t = s.takeTurn) ∨
    (s.nextTurn.agent = .resetLine ∧ t = s.takeTurn.externalReset) := by
  cases ha : s.nextTurn.agent with
  | host =>
    cases hh : s.held with
    | true =>
      rw [step_host_held ha hh] at h
      injection h with h
      exact .inl ⟨rfl, .inl rfl, h.symm⟩
    | false =>
      cases hc : s.cmds with
      | nil =>
        rw [step_host_idle ha hc] at h
        injection h with h
        exact .inl ⟨rfl, .inr rfl, h.symm⟩
      | cons c rest =>
        cases c with
        | word w =>
          rw [step_host_word ha hh hc] at h
          exact .inr (.inl ⟨rfl, rfl, w, rest, rfl, h⟩)
        | partialWord => simp [step, ha, State.act, State.hostTurn, hh, hc] at h
  | mtimer =>
    rw [step_mtimer ha] at h
    injection h with h
    exact .inr (.inr (.inl ⟨rfl, h.symm⟩))
  | dbtimer =>
    rw [step_dbtimer ha] at h
    injection h with h
    exact .inr (.inr (.inr (.inl ⟨rfl, h.symm⟩)))
  | env =>
    rw [step_env ha] at h
    injection h with h
    exact .inr (.inr (.inr (.inr (.inl ⟨rfl, h.symm⟩))))
  | resetLine =>
    rw [step_reset ha] at h
    injection h with h
    exact .inr (.inr (.inr (.inr (.inr ⟨rfl, h.symm⟩))))

end Sys2Proof.Machine
end

