-- ==== Sys2Proof/Tests/Slice0.lean ====
section
/-! SUPPORT. Tests of the model, by the kernel. Expected values are the spec's: the bit patterns of 30_encoding.md R103
and R105, and the vectors of 95_test_vectors.md. The last part shows, for each statement with hypotheses, values that
meet them. -/

namespace Sys2Proof.Tests

open Sys2Proof.Machine Sys2Proof.Claims

/-! ### Helpers -/

/-- The parameters of the vectors: SOFTSTART_TICKS 3, BLK_WINDOW 4, NB_WINDOW 8, NB_INC 2, PRBS_FALLBACK 1, bit 12. -/
def vectorParams : Params := ⟨3, 4, 8, 2, 1, .bit12⟩

/-- Reset with the vectors' parameters. -/
def start : State := { State.reset with params := vectorParams }

/-- The next turn, with its inputs. -/
def withTurn (a : Agent) (din frc : Half) (s : State) : State := { s with script := [⟨a, din, frc⟩] }

/-- The HOST writes this word at its next turn. -/
def withWord (w : Word) (s : State) : State := { s with script := [⟨.host, s.din, s.frc⟩], cmds := [.word w] }

/-- The answer is a next state, and it passes the check. -/
def goesTo (o : Answer) (check : State → Bool) : Bool :=
  match o with
  | .next t => check t
  | _ => false

/-! ### Well-formedness: one ill-formed command for each check -/

theorem test_wf_refuses_fdeRd_7 : ¬ WellFormed (.fdeRd 1 7) := by decide
theorem test_wf_refuses_motMove_0 : ¬ WellFormed (.motMove 0 false 10) := by decide
theorem test_wf_refuses_motMove_9 : ¬ WellFormed (.motMove 9 true 10) := by decide
theorem test_wf_refuses_motRd_5 : ¬ WellFormed (.motRd 5) := by decide
theorem test_wf_refuses_dbStat_3 : ¬ WellFormed (.dbStat 3) := by decide
theorem test_wf_takes_invalid_module : WellFormed (.fdeRd 15 6) ∧ WellFormed (.fdeUpd 9 5) := by decide

/-! ### Decoding: every command, its word bit by bit (R103, R105, V-ENC-1) -/

theorem test_decode_nop : decode 0b00000000_000000000000000000000000#32 = .ok .nop := by decide
theorem test_decode_status : decode 0b00000001_000000000000000000000000#32 = .ok .status := by decide
theorem test_decode_clrerr : decode 0b00000010_000000000000000000000000#32 = .ok .clrerr := by decide
theorem test_decode_fdeUpd : decode 0b00010000_0000_0010_0000000100101100#32 = .ok (.fdeUpd 2 300) := by decide
theorem test_decode_fdeRd : decode 0b00010001_0000_1111_000000000000_0110#32 = .ok (.fdeRd 15 6) := by decide
theorem test_decode_motMove : decode 0b00100000_1000_000_1_1111111111111111#32 = .ok (.motMove 8 true 0xFFFF) := by
  decide
theorem test_decode_motMove_immediate :
    decode 0b00100000_0001_000_0_0000000000001010#32 = .ok (.motMove 1 false 10) := by decide
theorem test_decode_motStop : decode 0b00100001_000000000000000000000000#32 = .ok .motStop := by decide
theorem test_decode_motRd : decode 0b00100010_00000000000000000000_0010#32 = .ok (.motRd 2) := by decide
theorem test_decode_dbBlk : decode 0b00110000_00000000000000000000_1111#32 = .ok (.dbBlk 15) := by decide
theorem test_decode_dbStart : decode 0b00110001_00000000000000000000_0101#32 = .ok (.dbStart 5) := by decide
theorem test_decode_dbAdv : decode 0b00110010_000000000000000000000000#32 = .ok .dbAdv := by decide
theorem test_decode_dbStat : decode 0b00110011_00000000000000000000_0010#32 = .ok (.dbStat 2) := by decide
theorem test_decode_dbClr : decode 0b00110100_000000000000000000000000#32 = .ok .dbClr := by decide
theorem test_decode_prbsGen : decode 0b01000000_0000000000000000000000_10#32 = .ok (.prbsGen 2) := by decide
theorem test_decode_prbsSeed : decode 0b01000001_000000000_001001000110100#32 = .ok (.prbsSeed 0x1234) := by decide
theorem test_decode_prbsRd : decode 0b01000010_000000000000000000000000#32 = .ok .prbsRd := by decide

/-- V-ENC-2: the reserved bits and opcodes. -/
theorem test_decode_refuses_reserved :
    ([0x00000001, 0x10100000, 0x10F0FFFF, 0x11010010, 0x20120000, 0x21000001, 0x30000010, 0x34800000, 0x40000004,
      0x41008000, 0x42000001] : List Word).all (fun w => decode w = .error .reservedBits) ∧
    ([0x03000000, 0x12000000, 0xFF000000, 0x43000000] : List Word).all
      (fun w => decode w = .error .reservedOpcode) := by decide

/-- V-ENC-2: the reserved selectors and modes. -/
theorem test_decode_refuses_fields :
    ([0x11010007, 0x22000005, 0x33000003] : List Word).all (fun w => decode w = .error .reservedSelector) ∧
    ([0x20000000, 0x20900000] : List Word).all (fun w => decode w = .error .reservedMode) := by decide

theorem test_decodeTableWord : decodeTableWord 32 0x20210190 = some (.motMove 2 true 400) := by decide

/-- The rows are opcode_table.json's: one of each shape, against the encoder. -/
theorem test_table_rows_match_encodings :
    ([.nop, .fdeUpd 15 0xFFFF, .fdeRd 15 6, .motMove 8 true 0xFFFF, .motRd 4, .dbBlk 15, .prbsGen 3,
      .prbsSeed 0x7FFF] : List Instr).all
      (fun i => (opcodeTable.filter fun r => encode i &&& r.mask = r.pattern).map OpcodeRow.opcode = [i.opcode]) := by
  decide

/-! ### Assembly (R117, R118, V-ENC-1) -/

theorem test_asm_symbol : assemble "MOT_MOVE.D TURN_BL, 0xFFFF ; reverse".toList = .ok [0x2081FFFF#32] := by decide
theorem test_asm_pseudo : assemble "MOT_FREE.I PIVOT_CW".toList = .ok [0x20300000#32] := by decide
theorem test_asm_range : assemble "FDE_RD 1, 7".toList = .error .outOfRange := by decide
theorem test_asm_lines : assemble "FDE_UPD 2, 300\n\n DB_STAT NEXT".toList = .ok [0x1002012C#32, 0x33000002#32] := by
  decide

/-! ### One step (V-SYS, P5) -/

/-- An illegal word: ERR, the response and nothing else. -/
theorem test_step_illegal :
    goesTo (step (withWord 0x20000000 start)) (fun t =>
      t.err && t.resp == 0x80000001#32 && t.mps == Mps.reset && t.dbu == Dbu.reset && t.prg == 0#15) := by decide

theorem test_step_nop_keeps_err :
    goesTo (step (withWord 0x00000000 { start with err := true, resp := 7#32 })) (fun t => t.err && t.resp == 0#32) := by
  decide

theorem test_step_status : goesTo (step (withWord 0x01000000 { start with err := true })) (fun t => t.resp == 1#32) := by
  decide

theorem test_step_clrerr :
    goesTo (step (withWord 0x02000000 { start with err := true })) (fun t => !t.err && t.resp == 0#32) := by decide

theorem test_step_partial_write :
    step { start with script := [⟨.host, 0, 0⟩], cmds := [.partialWord] } =
      .fault .partialCommandWrite := rfl

/-- The host's hook runs its word as the very next step. -/
theorem test_withFetchWord :
    goesTo (step (start.withFetchWord 32 0x2010000A)) (fun t =>
      t.mps == ⟨.fwd, .stop, 0, 0, 10, false, .fast, true, 0⟩ && t.mps.mout == 0b1010110#7) := by decide

/-! ### Frequency-Detection Engine -/

/-- The record of module 1 after the first 29 samples of V-FDE-1, written as ages: 310 is eight samples old next. -/
def beforePeak : FdeModule :=
  { samples := #v[240, 250, 260, 270, 280, 290, 300, 310, 300, 290, 280, 270, 260, 250, 240, 230, 220, 210, 200, 190, 180]
    grads := #v[.neg, .neg, .neg, .neg, .neg, .neg, .neg, .pos, .pos, .pos, .pos, .pos, .pos, .pos, .pos, .pos, .pos,
                .pos, .pos, .pos]
    idle := 29
    log0 := ⟨0, 0⟩
    log1 := ⟨0, 0⟩
    result := 0 }

/-- V-FDE-1, k = 30: sample 230 confirms the peak and logs 290 at age 29. -/
theorem test_fdeUpd_confirms :
    goesTo (exec (.fdeUpd 1 230) (start.setModule 0 beforePeak)) (fun t =>
      (t.fde[(0 : Nat)]).idle == 0#8 && (t.fde[(0 : Nat)]).log1 == ⟨290, 29⟩ && (t.fde[(0 : Nat)]).log0 == ⟨0, 0⟩ &&
      t.resp == 0#32) := by decide

/-- V-FDE-7: a rotation timeout needs more than 300 steps. -/
theorem test_fdeUpd_rotation_timeout :
    let f : FdeModule := { FdeModule.reset with idle := 73, log1 := ⟨190, 29⟩, result := 1 }
    (f.update true 100 0).result = 1#16 ∧ (f.update true 301 0).result = 0#16 ∧ (f.update true 301 0).idle = 74#8 := by
  decide

theorem test_fdeRd_selectors :
    goesTo (exec (.fdeRd 1 5) (start.setModule 0 { beforePeak with log1 := ⟨190, 29⟩ })) (fun t => t.resp == 29#32) ∧
    goesTo (exec (.fdeRd 1 6) (start.setModule 0 beforePeak)) (fun t => t.resp == 280#32) := by decide

/-- V-FDE-9: the selector is checked before the module id. -/
theorem test_fdeRd_invalid_module :
    goesTo (exec (.fdeRd 12 0) start) (fun t => t.resp == 0#32 && !t.err) ∧
    goesTo (exec (.fdeRd 12 7) start) (fun t => t.resp == 0x80000001#32 && t.err) := by decide

/-! ### Motor Phase Sequencer -/

/-- V-MPS-10: a deferred move over an immediate one turns the output stage off at once. -/
theorem test_motMove_deferred :
    goesTo (exec (.motMove 2 true 16) { start with mps := ⟨.fwd, .stop, 1, 1, 16, false, .fast, true, 0⟩ }) (fun t =>
      t.mps == ⟨.rev, .fwd, 1, 0, 16, false, .slow, false, 3⟩ && t.mps.mout == 0b0010100#7) := by decide

/-- R223's example. -/
theorem test_motStop :
    goesTo (exec .motStop { start with mps := ⟨.fwd, .stop, 2, 2, 16, false, .fast, true, 0⟩ }) (fun t =>
      t.mps == ⟨.stop, .fwd, 2, 2, 16, false, .off, false, 0⟩ && t.mps.mout == 0b0000011#7) := by decide

/-- P1 row 5, P2 row 5. -/
theorem test_motRd_status :
    goesTo (exec (.motRd 2) { start with mps := ⟨.fwd, .stop, 4, 4, 10, false, .fast, true, 0⟩ })
      (fun t => t.resp == 0x6401#32) ∧
    goesTo (exec (.motRd 3) { start with mps := ⟨.rev, .stop, 1, 1, 5, false, .slow, false, 2⟩ })
      (fun t => t.resp == 0x14#32) := by decide

/-- P1 row 6: the tick that reaches the threshold; V-MPS-4's shape: it wins over the countdown. -/
theorem test_motor_tick_stops :
    goesTo (step (withTurn .mtimer 0 0 { start with mps := ⟨.fwd, .stop, 1, 1, 2, false, .slow, false, 1⟩ })) (fun t =>
      t.mps == ⟨.stop, .stop, 2, 2, 2, true, .off, false, 0⟩) := by decide

/-- The saturated step count with threshold 0 (R46, V-MPS-5), and PHASE from 7 to 0. -/
theorem test_motor_tick_saturates :
    goesTo (step (withTurn .mtimer 0 0 { start with mps := ⟨.fwd, .stop, 7, 0xFFFF, 0, false, .fast, true, 0⟩ }))
      (fun t => t.mps == ⟨.fwd, .stop, 0, 0xFFFF, 0, false, .fast, true, 0⟩) := by decide

/-! ### Debounce Unit -/

/-- V-DB-1 and V-DB-5. -/
theorem test_dbBlk :
    goesTo (exec (.dbBlk 3) { start with din := 0x0008, resp := 7#32 }) (fun t =>
      t.held && t.dbu == ⟨.blocking, 0, 0, 0, .idle, 3⟩ && t.resp == 7#32) ∧
    goesTo (exec (.dbBlk 3) { start with din := 0xFFF7, resp := 7#32 }) (fun t =>
      !t.held && t.dbu == ⟨.free, 0, 0, 0, .idle, 3⟩ && t.resp == 0#32) := by decide

/-- V-DB-2, row 1; V-DB-4. -/
theorem test_dbStart :
    goesTo (exec (.dbStart 5) start) (fun t => t.resp == 1#32 && t.dbu == ⟨.session, 0, 5, 2, .running, 0⟩) ∧
    goesTo (exec (.dbStart 7) { start with dbu := ⟨.session, 1, 5, 2, .running, 0⟩ }) (fun t =>
      t.resp == 0#32 && !t.err && t.dbu == ⟨.session, 1, 5, 2, .running, 0⟩) := by decide

/-- V-DB-2, last row; V-DB-3. -/
theorem test_dbAdv :
    goesTo (exec .dbAdv { start with din := 0x0020, dbu := ⟨.session, 8, 5, 8, .running, 0⟩ }) (fun t =>
      t.resp == 2#32 && t.dbu == ⟨.free, 8, 5, 10, .succeeded, 0⟩) ∧
    goesTo (exec .dbAdv { start with din := 0xFFDF, dbu := ⟨.session, 8, 5, 4, .running, 0⟩ }) (fun t =>
      t.resp == 3#32 && t.dbu == ⟨.free, 8, 5, 4, .failed, 0⟩) := by decide

/-- V-DB-10: between sample points the pin is not seen. -/
theorem test_dbAdv_no_sample :
    goesTo (exec .dbAdv { start with din := 0, dbu := ⟨.session, 3, 5, 4, .running, 0⟩ }) (fun t =>
      t.resp == 1#32 && t.dbu == ⟨.session, 3, 5, 4, .running, 0⟩) := by decide

/-- P4 row 7. -/
theorem test_dbStat :
    goesTo (exec (.dbStat 0) { start with dbu := ⟨.session, 0, 5, 2, .running, 3⟩ }) (fun t => t.resp == 0x3521#32) := by
  decide

/-- V-DB-9. -/
theorem test_dbClr :
    goesTo (exec .dbClr { start with dbu := ⟨.free, 9, 5, 4, .succeeded, 0⟩ }) (fun t =>
      t.resp == 0#32 && t.dbu == ⟨.free, 9, 5, 4, .idle, 0⟩) ∧
    goesTo (exec .dbClr { start with dbu := ⟨.session, 0, 2, 2, .running, 0⟩ }) (fun t =>
      t.resp == 1#32 && t.dbu == ⟨.session, 0, 2, 2, .running, 0⟩) := by decide

/-- V-DB-1, tick 4, and V-DB-7: the low sample wins on the window tick. -/
theorem test_debounce_tick :
    let held : State := { start with held := true, dbu := ⟨.blocking, 3, 0, 0, .idle, 3⟩ }
    goesTo (step (withTurn .dbtimer 0x0008 0 held)) (fun t =>
      !t.held && t.resp == 1#32 && t.dbu == ⟨.free, 4, 0, 0, .idle, 3⟩) ∧
    goesTo (step (withTurn .dbtimer 0 0 held)) (fun t =>
      !t.held && t.resp == 0#32 && t.dbu == ⟨.free, 4, 0, 0, .idle, 3⟩) := by decide

/-! ### PRBS Generator -/

/-- V-PRG-3, the degree and time requests. -/
theorem test_prbsGen :
    goesTo (exec (.prbsGen 2) { start with prg := 0x25AD }) (fun t => t.prg == 0x6EF6#15 && t.resp == 246#32) ∧
    goesTo (exec (.prbsGen 3) { start with prg := 0x6EF6 }) (fun t => t.prg == 0x331A#15 && t.resp == 0x131A#32) := by
  decide

/-- V-PRG-4: reseeding from the counter, and from the fallback. -/
theorem test_prbsGen_reseeds :
    goesTo (exec (.prbsGen 2) { start with frc := 0x1234 }) (fun t => t.prg == 0x365C#15 && t.resp == 220#32) ∧
    goesTo (exec (.prbsGen 0) { start with frc := 0x8000 }) (fun t => t.prg == 2#15 && t.resp == 0#32) := by decide

/-- V-PRG-5: the time floor tests bit 11 or bit 12. -/
theorem test_time_floor : timeValue .bit12 0x0C00 = 3584#13 ∧ timeValue .bit11 0x0C00 = 3072#13 := by decide

theorem test_prbsSeed_and_prbsRd :
    goesTo (exec (.prbsSeed 0) { start with prg := 5 }) (fun t => t.prg == 0#15 && t.resp == 0#32) ∧
    goesTo (exec .prbsRd { start with prg := 0x331A }) (fun t => t.prg == 0x331A#15 && t.resp == 0x331A#32) := by decide

/-! ## Witnesses: values that meet the hypotheses of each statement, clause by clause -/

/-- A turn of an agent with given pins. -/
def turn (a : Agent) (din : Half) : Turn := ⟨a, din, 0⟩

/-! ### Turns and the port -/

theorem witness_ResetPutsEveryRegisterAtItsValue : (withTurn .resetLine 0 0 start).nextTurn.agent = .resetLine := rfl

theorem witness_StepRunsTheDecodedCommand :
    let s := withWord 0x2010000A start
    s.nextTurn.agent = .host ∧ s.held = false ∧ s.cmds = [.word 0x2010000A#32] ∧
      decode 0x2010000A#32 = .ok (.motMove 1 false 10) := by decide

/-- A turn of ENV, a turn of another agent with more to come, and an empty script. -/
theorem witness_ScriptedTurnComesNext :
    (withTurn .env 5 6 start).script = (⟨.env, 5, 6⟩ : Turn) :: [] ∧ (⟨.env, 5, 6⟩ : Turn).agent = .env ∧
      ({ start with script := [⟨.dbtimer, 8, 0⟩, ⟨.host, 0, 0⟩] } : State).script =
        (⟨.dbtimer, 8, 0⟩ : Turn) :: [⟨.host, 0, 0⟩] ∧
      start.script = [] := by decide

theorem witness_IllegalWordSetsErrAndNothingElse :
    let s := withWord 0x20900000 start
    s.nextTurn.agent = .host ∧ s.held = false ∧ s.cmds = [.word 0x20900000#32] ∧
      decode 0x20900000#32 = .error .reservedMode := by decide

theorem witness_DisabledAgentsChangeNothing :
    let h : State := withTurn .host 0 0 { start with held := true }
    let m := withTurn .mtimer 0 0 start
    let d := withTurn .dbtimer 0 0 start
    (h.nextTurn.agent = .host ∧ h.held = true) ∧ (m.nextTurn.agent = .mtimer ∧ m.mps.ival = .off) ∧
      (d.nextTurn.agent = .dbtimer ∧ d.dbu.own = .free) := by decide

theorem witness_TimersWriteOnlyTheirRegisters :
    let d : State := withTurn .dbtimer 0 0 { start with dbu := ⟨.session, 0, 5, 2, .running, 0⟩ }
    (withTurn .env 1 1 start).nextTurn.agent = .env ∧ (withTurn .mtimer 0 0 start).nextTurn.agent = .mtimer ∧
      d.nextTurn.agent = .dbtimer ∧ d.dbu.own ≠ .blocking := by decide

theorem witness_OnlyAPartialWriteStops :
    State.PartialWriteDue { start with script := [⟨.host, 0, 0⟩], cmds := [.partialWord] } ∧
      ¬ State.PartialWriteDue (withTurn .env 0 0 start) := by
  refine ⟨⟨rfl, rfl, [], rfl⟩, fun h => ?_⟩
  exact absurd h.1 (by decide)

theorem witness_LegalResponsesHaveBit31Clear : WellFormed (.fdeRd 15 6) ∧ WellFormed (.motMove 8 true 0xFFFF) := by
  decide

theorem witness_ReadsAreIdempotent :
    WellFormed .status ∧ WellFormed (.fdeRd 8 6) ∧ WellFormed (.motRd 4) ∧ WellFormed (.dbStat 2) ∧
      WellFormed .prbsRd := by decide

theorem witness_BlockCommandsHaveExactlyTheirEffect : (2#8).toNat ≤ 2 ∧ 0x800000#24 ≠ 0#24 := by decide

/-- An illegal word sets ERR; CLRERR and the reset clear it. -/
theorem witness_ErrIsSticky :
    (∃ t, step (withWord 0x20000000 start) = .next t ∧ t.err = true ∧ start.err = false) ∧
    (∃ t, step (withWord 0x02000000 { start with err := true }) = .next t ∧ t.err = false) ∧
    (∃ t, step (withTurn .resetLine 0 0 { start with err := true }) = .next t ∧ t.err = false) :=
  ⟨⟨_, rfl, rfl, rfl⟩, ⟨_, rfl, rfl⟩, ⟨_, rfl, rfl⟩⟩

/-! ### Frequency-Detection Engine -/

/-- Module 1 one sample before the peak of V-FDE-1 is confirmed. -/
def peakDue : State := start.setModule 0 beforePeak

/-- The module-1 record after that sample. -/
def afterPeak : FdeModule := beforePeak.update false 0 230

/-- Rising, level and falling. -/
theorem witness_FdeUpdPushesTheSample :
    (peakDue.fde[(0 : Nat)]).samples[0].toNat < (241#16).toNat ∧
      (peakDue.fde[(0 : Nat)]).samples[0].toNat = (240#16).toNat ∧
      (239#16).toNat < (peakDue.fde[(0 : Nat)]).samples[0].toNat := by decide

/-- The sample 230 confirms, and times nothing out. -/
theorem confirms_peak : Confirms beforePeak afterPeak ∧ ¬ TimesOut 0 peakDue afterPeak := by
  unfold Confirms TimesOut older newer
  decide

/-- A constant stream confirms nothing. -/
theorem confirms_not : ¬ Confirms FdeModule.reset (FdeModule.reset.update false 0 0) := by
  unfold Confirms older newer
  decide

theorem witness_FdeUpdLogsAConfirmedExtremum :
    (Confirms beforePeak afterPeak) ∧ ¬ Confirms FdeModule.reset (FdeModule.reset.update false 0 0) ∧
      ¬ TimesOut 0 start (FdeModule.reset.update false 0 0) := by
  refine ⟨confirms_peak.1, confirms_not, ?_⟩
  unfold TimesOut
  decide

/-- The timeout at IDLE 42, logged ages on both ends of the window and outside it, and both classes of module. -/
theorem witness_FdeUpdComputesTheResult :
    TimesOut 5 start ({ FdeModule.reset with idle := 41 }.update false 0 0) ∧
    ¬ TimesOut 7 { start with mps := { Mps.reset with steps := 300 } } { FdeModule.reset with idle := 255 } ∧
    InWindow ⟨310, 18⟩ ∧ InWindow ⟨100, 25⟩ ∧ ¬ InWindow ⟨310, 17⟩ ∧ ¬ InWindow ⟨310, 26⟩ ∧
    (Confirms beforePeak afterPeak ∧ ¬ TimesOut 6 peakDue afterPeak) := by
  refine ⟨?_, ?_, ?_, ?_, ?_, ?_, confirms_peak.1, ?_⟩ <;> first | unfold TimesOut | unfold InWindow
  all_goals decide

theorem witness_FdeUpdChangesOnlyItsModule : (0 : Fin 8) ≠ 7 := by decide

theorem witness_FdeUpdReadsOnlyItsModule :
    let other : State := { start with mps := { Mps.reset with steps := 400 } }
    (start.fde[(5 : Fin 8)] = other.fde[(5 : Fin 8)] ∧ (5 : Fin 8).val < 6) ∧
    (start.fde[(6 : Fin 8)] = (start.setErr true).fde[(6 : Fin 8)] ∧ start.mps.steps = (start.setErr true).mps.steps) :=
  ⟨⟨rfl, by decide⟩, rfl, rfl⟩

theorem witness_UnrecognizedModuleIsANoOp :
    ((0#4).toNat = 0 ∨ 9 ≤ (0#4).toNat) ∧ ((9#4).toNat = 0 ∨ 9 ≤ (9#4).toNat) ∧
      ((15#4).toNat = 0 ∨ 9 ≤ (15#4).toNat) ∧ (6#4).toNat ≤ 6 := by decide

theorem witness_FdeRdReadsTheSelectedField :
    (6#4).toNat ≤ 6 ∧ (9#4).toNat ≥ 9 ∧ 7 ≤ (7#4).toNat ∧ 7 ≤ (15#4).toNat := by decide

theorem witness_ConfirmationsAreThirteenUpdatesApart :
    start.fde[(7 : Fin 8)].idle = 0#8 ∧ (List.replicate 12 5#16).length ≤ 12 := by decide

/-- Module 8 at reset in a state whose other units are not. -/
theorem witness_SixteenthUpdateIsTheFirstToConfirm :
    let s : State := { start with err := true, mps := { Mps.reset with steps := 0xFFFF } }
    s.fde[(7 : Fin 8)] = FdeModule.reset ∧ (List.replicate 15 5#16).length ≤ 15 := by decide

theorem zero_push (v : BitVec 8) : { FdeModule.reset with idle := v }.push 0#16 = { FdeModule.reset with idle := v } := by
  have h : FdeModule.reset.push 0#16 = FdeModule.reset := by decide
  exact congrArg (fun f => { f with idle := v }) h

theorem zero_confirmed (v : BitVec 8) : ({ FdeModule.reset with idle := v } : FdeModule).confirmed = false := by
  have h : reversal (olderSum FdeModule.reset.grads) (newerSum FdeModule.reset.grads) = false := by decide
  simp [FdeModule.confirmed, h]

/-- A zero sample on a record of zeros confirms nothing and counts. -/
theorem zero_update (v : BitVec 8) :
    { FdeModule.reset with idle := v }.update false 0#16 0#16 = { FdeModule.reset with idle := satInc v } := by
  simp only [FdeModule.update, zero_push, zero_confirmed, FdeModule.logIdle_false]
  unfold FdeModule.expire
  split <;> rfl

theorem zero_stream (n m : Nat) (h : m + n ≤ 42) (s : State)
    (hf : s.fde[(0 : Fin 8)] = { FdeModule.reset with idle := BitVec.ofNat 8 m }) (hs : s.mps.steps = 0#16) :
    ∃ u, runAll ((List.replicate n 0#16).map fun x => .fdeUpd (idOf 0) x) s = .next u ∧
      u.fde[(0 : Fin 8)] = { FdeModule.reset with idle := BitVec.ofNat 8 (m + n) } := by
  induction n generalizing m s with
  | zero => exact ⟨s, rfl, hf⟩
  | succ n ih =>
    have hu : s.fde[(0 : Fin 8)].update (isRotation 0) s.mps.steps 0#16 =
        { FdeModule.reset with idle := BitVec.ofNat 8 (m + 1) } := by
      have hm : satInc (BitVec.ofNat 8 m) = BitVec.ofNat 8 (m + 1) := by
        apply BitVec.eq_of_toNat_eq
        rw [satInc_toNat]
        simp only [BitVec.toNat_ofNat]
        omega
      rw [hf, hs, ← hm]
      exact zero_update _
    have e := execFdeUpd_id 0 0#16 s
    obtain ⟨u, h1, h2⟩ := ih (m + 1) (by omega)
      ((s.setModule 0 (s.fde[(0 : Fin 8)].update (isRotation 0) s.mps.steps 0#16)).respond
        (zext (s.fde[(0 : Fin 8)].update (isRotation 0) s.mps.steps 0#16).result))
      ((State.setModule_same 0 _ s).trans hu) hs
    refine ⟨u, ?_, by rw [h2, Nat.add_right_comm, Nat.add_assoc]⟩
    simp only [List.replicate_succ, List.map_cons, runAll, exec, idOf, e]
    exact h1

theorem witness_FortyTwoUpdatesWithoutExtremumClearTheResult :
    (0 : Fin 8).val < 6 ∧ (List.replicate 42 0#16).length = 42 ∧
    ∀ n, 1 ≤ n → n ≤ 42 →
      ∃ u, runAll (((List.replicate 42 0#16).take n).map fun x => .fdeUpd (idOf 0) x) start = .next u ∧
        u.fde[(0 : Fin 8)].idle ≠ 0#8 := by
  refine ⟨by decide, by decide, fun n h1 h2 => ?_⟩
  obtain ⟨u, hu, hf⟩ := zero_stream n 0 (by omega) start rfl rfl
  refine ⟨u, ?_, ?_⟩
  · rw [List.take_replicate, Nat.min_eq_left h2]
    exact hu
  · rw [hf]
    intro e
    have := congrArg BitVec.toNat e
    simp at this
    omega

theorem witness_CircularBufferImplementsTheSampleRing :
    ∀ a : Fin 21, start.fde[(0 : Fin 8)].samples[a] = (⟨Vector.replicate 21 0#16, 4⟩ : Ring).age a := by decide

/-! ### Motor Phase Sequencer -/

theorem witness_MotMoveStartsAManeuver :
    (Mode.fwd, 1#4) ∈ modeCodes ∧ (Mode.turnBl, 8#4) ∈ modeCodes ∧ Mode.turnBl ≠ .stop ∧ 9 ≤ (9#4).toNat := by decide

theorem witness_MotRdReadsTheSelectedWord : (4#4).toNat ≤ 4 ∧ 5 ≤ (5#4).toNat ∧ 5 ≤ (15#4).toNat := by decide

theorem witness_MotorOutputsFollowTheTable : (Mode.stop, 0#4) ∈ modeCodes ∧ Mps.reset.mode = .stop := by decide

/-- The tick at the threshold, inside the countdown, at its end, and at the FAST interval. -/
theorem witness_MotorTickAdvancesStopsOrCountsDown :
    ∀ m ∈ [(⟨.fwd, .stop, 7, 1, 2, false, .fast, true, 0⟩ : Mps), ⟨.fwd, .stop, 0, 1, 9, false, .slow, false, 2⟩,
        ⟨.fwd, .stop, 0, 1, 9, false, .slow, false, 1⟩, ⟨.fwd, .stop, 0, 1, 9, false, .fast, true, 0⟩],
      let s := withTurn .mtimer 0 0 { start with mps := m }
      s.nextTurn.agent = .mtimer ∧ s.mps.ival ≠ .off ∧ (2#16).toNat = min (s.mps.steps.toNat + 1) 65535 ∧
        (2#16 = s.mps.thresh ∨ 2 ≤ s.mps.cdown.toNat ∨ s.mps.cdown = 1#16 ∨ s.mps.cdown = 0#16) := by decide

/-- Threshold 1: no tick leaves it running, one tick ends it. -/
theorem witness_ManeuverEndsAfterExactlyThresholdTicks :
    (Mode.fwd, 1#4) ∈ modeCodes ∧ Mode.fwd ≠ .stop ∧ 1#16 ≠ 0#16 ∧ OnlyTicks [turn .env 0] ∧
      OnlyTicks [turn .mtimer 0, turn .dbtimer 0] ∧ countOf .mtimer [turn .env 0] < (1#16).toNat ∧
      (1#16).toNat ≤ countOf .mtimer [turn .mtimer 0, turn .dbtimer 0] := by
  unfold OnlyTicks
  decide

theorem legal_vectorParams : vectorParams.Legal := by
  constructor <;> decide

/-- SOFTSTART_TICKS = 3: two ticks are still slow, three are not. -/
theorem witness_SoftStartTakesExactlySoftstartTicks :
    start.params.Legal ∧ OnlyTicks (List.replicate 2 (turn .mtimer 0)) ∧ OnlyTicks (List.replicate 3 (turn .mtimer 0)) ∧
      countOf .mtimer (List.replicate 2 (turn .mtimer 0)) < start.params.softstart.toNat ∧
      start.params.softstart.toNat ≤ countOf .mtimer (List.replicate 3 (turn .mtimer 0)) ∧
      countOf .mtimer (List.replicate 3 (turn .mtimer 0)) < (4#16).toNat := by
  refine ⟨legal_vectorParams, ?_⟩
  unfold OnlyTicks
  decide

theorem witness_ThresholdZeroNeverEnds :
    (Mode.rev, 2#4) ∈ modeCodes ∧ Mode.rev ≠ .stop ∧ OnlyTicks [turn .mtimer 0] := by
  unfold OnlyTicks
  decide

theorem witness_PhaseAdvancesOnlyByMotorTicks :
    let s : State := { start with mps := ⟨.fwd, .stop, 7, 1, 9, false, .fast, true, 0⟩ }
    ((∃ t, step (withTurn .mtimer 0 0 s) = .next t) ∧ s.mps.ival ≠ .off) ∧
      (∃ t, step (withTurn .resetLine 0 0 s) = .next t) ∧ (∃ t, step (withWord 0x21000000 s) = .next t) :=
  ⟨⟨⟨_, rfl⟩, by decide⟩, ⟨_, rfl⟩, ⟨_, rfl⟩⟩

/-- A tick at the threshold sets DONE; MOT_MOVE and the reset clear it. -/
theorem witness_DoneIsSetByForcedStopOnly :
    let s : State := { start with mps := ⟨.fwd, .stop, 7, 1, 2, false, .fast, true, 0⟩ }
    let e : State := { start with mps := { Mps.reset with done := true } }
    goesTo (step (withTurn .mtimer 0 0 s)) (fun t => t.mps.done) ∧
      goesTo (step (withWord 0x2010000A e)) (fun t => !t.mps.done) ∧
      goesTo (step (withTurn .resetLine 0 0 e)) (fun t => !t.mps.done) := by decide

/-! ### Debounce Unit -/

/-- A session on pin 5 that has taken no sample. -/
def session : State := { start with dbu := ⟨.session, 0, 5, 2, .running, 0⟩ }

/-- A blocking call on pin 3. -/
def holding : State := { start with held := true, dbu := ⟨.blocking, 0, 0, 0, .idle, 3⟩ }

theorem witness_OwnedTimerRejectsRequests : session.dbu.own ≠ .free ∧ holding.dbu.own ≠ .free := by decide

theorem witness_DbBlkHoldsOnAHighPin :
    session.dbu.own ≠ .free ∧ start.dbu.own = .free ∧ BitVec.getLsbD (0x8000#16) (15#4).toNat = true ∧
      BitVec.getLsbD (0x7FFF#16) (15#4).toNat = false := by decide

theorem witness_DbStartStartsASession :
    holding.dbu.own ≠ .free ∧ ({ start with dbu := ⟨.free, 9, 5, 4, .failed, 0⟩ } : State).dbu.own = .free := by decide

/-- No session; a low sample; a high one at and below the window; no sample at and below the window. -/
theorem witness_DbAdvAdvancesTheSession :
    start.dbu.sstat ≠ .running ∧
    (let d : Dbu := ⟨.session, 2, 5, 2, .running, 0⟩; d.nextAt.toNat ≤ d.dbt.toNat ∧ d.dbt.toNat < (8#16).toNat ∧
      (4#16).toNat = min (d.nextAt.toNat + (2#16).toNat) 65535) ∧
    (let d : Dbu := ⟨.session, 8, 5, 8, .running, 0⟩; d.nextAt.toNat ≤ d.dbt.toNat ∧ (8#16).toNat ≤ d.dbt.toNat) ∧
    (let d : Dbu := ⟨.session, 8, 5, 9, .running, 0⟩; d.dbt.toNat < d.nextAt.toNat ∧ (8#16).toNat ≤ d.dbt.toNat) ∧
    (let d : Dbu := ⟨.session, 7, 5, 8, .running, 0⟩; d.dbt.toNat < d.nextAt.toNat ∧ d.dbt.toNat < (8#16).toNat) := by
  decide

theorem witness_DbStatAndDbClr :
    (2#4).toNat ≤ 2 ∧ 3 ≤ (3#4).toNat ∧ session.dbu.sstat = .running ∧ start.dbu.sstat = .idle ∧
      ((⟨.free, 9, 5, 4, .succeeded, 0⟩ : Dbu).sstat = .succeeded) ∧ ((⟨.free, 9, 5, 4, .failed, 0⟩ : Dbu).sstat = .failed) := by
  decide

/-- A session's tick; a blocking tick that is low, high at the window, and high below it. -/
theorem witness_DebounceTickCountsAndCompletes :
    let n : State := withTurn .dbtimer 0x0008 0 { holding with dbu := ⟨.blocking, 3, 0, 0, .idle, 3⟩ }
    ((withTurn .dbtimer 0 0 session).nextTurn.agent = .dbtimer ∧ session.dbu.own = .session) ∧
    ((withTurn .dbtimer 0 0 holding).nextTurn.din.getLsbD 3 = false ∧ holding.dbu.own = .blocking) ∧
    (n.nextTurn.din.getLsbD 3 = true ∧ (4#16).toNat = min (n.dbu.dbt.toNat + 1) 65535 ∧
      n.params.blkWindow.toNat ≤ (4#16).toNat) ∧
    ((1#16).toNat = min (holding.dbu.dbt.toNat + 1) 65535 ∧ (1#16).toNat < holding.params.blkWindow.toNat) := by
  decide

/-- BLK_WINDOW = 4: three high ticks and a fourth, low or high. -/
theorem witness_BlockingDebounceAnswersAtTheRightTick :
    let ts := [turn .dbtimer 0x0008, turn .host 0, turn .dbtimer 0x0008, turn .mtimer 0, turn .dbtimer 0x0008]
    let s (d : Turn) : State := { start with din := 0x0008, script := ts ++ [d] }
    ∀ d ∈ [turn .dbtimer 0, turn .dbtimer 0x0008],
      (s d).dbu.own = .free ∧ (s d).din.getLsbD (3#4).toNat = true ∧ (s d).script = ts ++ d :: [] ∧
      (∀ t ∈ ts, t.agent ≠ .resetLine) ∧ (∀ t ∈ ts, t.agent = .dbtimer → t.din.getLsbD (3#4).toNat = true) ∧
      countOf .dbtimer ts < (s d).params.blkWindow.toNat ∧ d.agent = .dbtimer ∧
      countOf .dbtimer ts + 1 = (s d).params.blkWindow.toNat := by decide

/-- The holding state meets the invariant. -/
theorem inv_holding : holding.Inv where
  params := legal_vectorParams
  session := by decide
  blocking := by decide
  window := by decide
  gradients := by decide
  collision := by decide
  rotation := by decide
  stopped := by decide
  enabled := by decide
  counting := by decide
  countdown_le := by decide
  threshold := by decide
  complete := by decide

theorem witness_HoldIsBounded :
    State.Inv { holding with script := List.replicate 4 (turn .dbtimer 0x0008) } ∧ holding.held = true ∧
      NoReset (List.replicate 4 (turn .dbtimer 0x0008)) ∧
      countOf .dbtimer (List.replicate 4 (turn .dbtimer 0x0008)) = holding.params.blkWindow.toNat := by
  refine ⟨⟨inv_holding.1, inv_holding.2, inv_holding.3, inv_holding.4, inv_holding.5, inv_holding.6, inv_holding.7,
    inv_holding.8, inv_holding.9, inv_holding.10, inv_holding.11, inv_holding.12, inv_holding.13⟩, rfl, ?_, by decide⟩
  unfold NoReset
  decide

/-- NB_WINDOW = 8: seven advances, and eight. -/
theorem witness_SessionHeldHighSucceeds :
    ∀ n ∈ [7, 8],
      let ts := List.replicate n (turn .dbtimer 0, turn .host 0x0020)
      let s : State := { start with
        script := ts.flatMap fun q => [q.1, q.2], cmds := List.replicate n (.word 0x32000000#32) }
      s.dbu.own = .free ∧ s.held = false ∧ ts.length ≤ s.params.nbWindow.toNat ∧
        s.script = (ts.flatMap fun q => [q.1, q.2]) ++ [] ∧
        s.cmds = List.replicate ts.length (.word 0x32000000#32) ++ [] ∧
        ∀ q ∈ ts, q.1.agent = .dbtimer ∧ q.2.agent = .host ∧ q.2.din.getLsbD (5#4).toNat = true := by decide

/-- The sixth advance with NB_INC = 3, a sample point; the seventh, below the window; the eighth, at the window: log 18's
case NB_WINDOW = 8 and NB_INC = 3. -/
theorem witness_SessionSamplesExactlyItsSchedule :
    let pars : Params := { vectorParams with nbInc := 3 }
    pars.Legal ∧ pars.nbInc.toNat ∣ 6 ∧ ¬ pars.nbInc.toNat ∣ 7 ∧ ¬ pars.nbInc.toNat ∣ 8 ∧
      pars.nbWindow.toNat = 8 ∧
      ∀ n ∈ [5, 6, 7],
        let ts := List.replicate n (turn .dbtimer 0, turn .host 0x0020)
        let q := (turn .dbtimer 0, turn .host 0xFFDF)
        let s : State := { start with
          params := pars
          script := (ts.flatMap fun r => [r.1, r.2]) ++ [q.1, q.2]
          cmds := List.replicate (n + 1) (.word 0x32000000#32) }
        s.dbu.own = .free ∧ s.held = false ∧ ts.length + 1 ≤ s.params.nbWindow.toNat ∧
          s.script = (ts.flatMap fun r => [r.1, r.2]) ++ q.1 :: q.2 :: [] ∧
          s.cmds = List.replicate (ts.length + 1) (.word 0x32000000#32) ++ [] ∧
          (∀ r ∈ ts, r.1.agent = .dbtimer ∧ r.2.agent = .host ∧ r.2.din.getLsbD (5#4).toNat = true) ∧
          q.1.agent = .dbtimer ∧ q.2.agent = .host ∧ q.2.din.getLsbD (5#4).toNat = false := by
  refine ⟨⟨?_, ?_, ?_, ?_, ?_, ?_⟩, ?_⟩ <;> decide

/-- V-DB-8's advance, the pin high: it succeeds with one sample. -/
theorem witness_SuccessNeedsAHighSample :
    let s : State := { start with din := 0x0020, dbu := ⟨.session, 9, 5, 2, .running, 0⟩ }
    s.dbu.sstat = .running ∧ s.dbu.nextAt = s.params.nbInc ∧
      goesTo (exec .dbAdv s) (fun t => t.dbu.sstat = .succeeded) := by decide

/-! ### PRBS Generator -/

/-- A register that needs no reseeding; a counter that reseeds it and one that does not; a field with its floor bit set
and one without, for the degree and for both floor bits of the time. -/
theorem witness_PrbsGenStepsAndAnswers :
    (0x25AD#15 ≠ 0#15) ∧ start.prg = 0#15 ∧ (0x1234#16).toNat % 32768 ≠ 0 ∧ (0x8000#16).toNat % 32768 = 0 ∧
      (0x0100#15).toNat.testBit 8 = true ∧ (0x0030#15).toNat.testBit 8 = false ∧
      (start.params.timeFloor, 12) ∈ [(TimeFloor.bit11, 11), (.bit12, 12)] ∧
      (0x1000#15).toNat.testBit 12 = true ∧ (0x0C00#15).toNat.testBit 12 = false ∧
      ∀ k ∈ [0, 1, 2, 3], (BitVec.ofNat 2 k).toNat = k := by decide

theorem witness_PrbsValuesStayInTheirRanges : ∀ k ∈ [0, 1, 2, 3], (BitVec.ofNat 2 k).toNat = k := by decide

theorem witness_PrbsGenLeavesTheRegisterNonzero : start.params.Legal := legal_vectorParams

theorem witness_PrbsPeriodIs32767 : ({ start with prg := 1#15 } : State).prg ≠ 0#15 := by decide

theorem witness_OnlyPrbsCommandsChangeTheRegister :
    goesTo (step (withWord 0x41001234 start)) (fun t => t.prg ≠ start.prg) ∧
      goesTo (step (withTurn .resetLine 0 0 { start with prg := 5 })) (fun t => t.prg ≠ 5#15) := by decide

/-- A nonzero register under two counters; a zero one under two counters that differ in bit 15 only. -/
theorem witness_PrbsGenReadsOnlyRegisterAndCounter :
    (0x5A5A#15 ≠ 0#15) ∧ (0x8000#16).toNat % 32768 = (0#16).toNat % 32768 := by decide

/-- The register 0x5A5A and its rotating form with the pointer at cell 3. -/
theorem witness_RotatingFormImplementsTheRegister :
    let r : Rotating := ⟨Vector.ofFn fun i : Fin 15 => (0x5A5A#15).getLsbD ((17 - i.val) % 15), 3⟩
    ∀ i : Fin 15, (0x5A5A#15).getLsbD i.val = r.bit i := by decide

/-! ### Encoding and the invariant -/

theorem witness_DecodeOfEncodeIsTheCommand : WellFormed (.motMove 8 true 0xFFFF) ∧ WellFormed (.prbsSeed 0x7FFF) := by
  decide

theorem witness_EncodeOfDecodeIsTheWord : decode 0x2081FFFF#32 = .ok (.motMove 8 true 0xFFFF) := by decide

/-- Both ends of each range. -/
theorem witness_ReservedOpcodesAreRejected :
    ∀ op ∈ [0x03, 0x0F, 0x12, 0x1F, 0x23, 0x2F, 0x35, 0x3F, 0x43, 0xFF],
      (3 ≤ (BitVec.ofNat 8 op).toNat ∧ (BitVec.ofNat 8 op).toNat ≤ 0x0F) ∨
      (0x12 ≤ (BitVec.ofNat 8 op).toNat ∧ (BitVec.ofNat 8 op).toNat ≤ 0x1F) ∨
      (0x23 ≤ (BitVec.ofNat 8 op).toNat ∧ (BitVec.ofNat 8 op).toNat ≤ 0x2F) ∨
      (0x35 ≤ (BitVec.ofNat 8 op).toNat ∧ (BitVec.ofNat 8 op).toNat ≤ 0x3F) ∨ 0x43 ≤ (BitVec.ofNat 8 op).toNat := by
  decide

theorem witness_ReservedFieldValuesAreRejected :
    7 ≤ (7#4).toNat ∧ 5 ≤ (5#4).toNat ∧ 3 ≤ (3#4).toNat ∧ (0#4 = 0#4 ∨ 9 ≤ (0#4).toNat) ∧
      (9#4 = 0#4 ∨ 9 ≤ (9#4).toNat) := by decide

theorem witness_AssemblerEmitsOnlyLegalWords : assemble "PRBS_TIME".toList = .ok [0x40000003#32] := by decide

theorem witness_StepKeepsTheInvariant : holding.Inv ∧ ∃ t, step (withTurn .dbtimer 0 0 holding) = .next t :=
  ⟨inv_holding, ⟨_, rfl⟩⟩

end Sys2Proof.Tests
end

namespace Sys2Proof.Machine

open Sys2Proof.Claims

/-! ### What one command can do -/

/-- What the meaning of a command can do to a state. The response words of the reads, and which of the commands may only
respond, are left open: no register but RESP depends on them. -/
inductive Effect (s : State) : Instr → State → Prop
  | responds (i : Instr) (v : Word) : Effect s i (s.respond v)
  | illegal {i : Instr} (hi : ¬ WellFormed i) : Effect s i s.raiseIllegal
  | clearsError : Effect s .clrerr (s.clearError.respond 0#32)
  | updates (mod : BitVec 4) (x : Half) (k : Fin 8) (v : Word) :
      Effect s (.fdeUpd mod x) ((s.setModule k (s.fde[k].update (isRotation k) s.mps.steps x)).respond v)
  | moves (code : BitVec 4) (d : Bool) (thresh : Half) {mode : Mode} (hm : mode ≠ .stop) :
      Effect s (.motMove code d thresh) ((s.setMps (s.mps.move s.params.softstart mode d thresh)).respond 0#32)
  | halts : Effect s .motStop ((s.setMps s.mps.halt).respond 0#32)
  | holds (p : BitVec 4) (hf : s.dbu.own = .free) :
      Effect s (.dbBlk p) ((s.setDbu (s.dbu.acquireBlocking p)).setHeld true)
  | answersLow (p : BitVec 4) (hf : s.dbu.own = .free) :
      Effect s (.dbBlk p) ((s.setDbu (s.dbu.acquireBlocking p).release).respond 0#32)
  | starts (p : BitVec 4) (hf : s.dbu.own = .free) :
      Effect s (.dbStart p) ((s.setDbu (s.dbu.startSession s.params.nbInc p)).respond 1#32)
  | advances (v : Word) :
      Effect s .dbAdv ((s.setDbu (s.dbu.advance s.params (s.sample s.dbu.spin))).respond v)
  | clears (v : Word) : Effect s .dbClr ((s.setDbu s.dbu.clear).respond v)
  | generates (kind : BitVec 2) (v : Word) :
      Effect s (.prbsGen kind) ((s.setPrg (genBits (freshBits kind) (reseed s.params.fallback s.frc s.prg))).respond v)
  | seeds (l : BitVec 15) : Effect s (.prbsSeed l) ((s.setPrg l).respond 0#32)

theorem fdeSelLegal_eq_wellFormed (mod sel : BitVec 4) : fdeSelLegal sel = (Instr.fdeRd mod sel).wellFormed := by
  simp [fdeSelLegal, Instr.wellFormed, Nat.lt_succ_iff]

theorem motSelLegal_eq_wellFormed (sel : BitVec 4) : motSelLegal sel = (Instr.motRd sel).wellFormed := by
  simp [motSelLegal, Instr.wellFormed, Nat.lt_succ_iff]

theorem dbSelLegal_eq_wellFormed (sel : BitVec 4) : dbSelLegal sel = (Instr.dbStat sel).wellFormed := by
  simp [dbSelLegal, Instr.wellFormed, Nat.lt_succ_iff]

theorem modeLegal_eq_wellFormed (mode : BitVec 4) (d : Bool) (thresh : Half) :
    modeLegal mode = (Instr.motMove mode d thresh).wellFormed := by
  revert mode
  simp only [Instr.wellFormed]
  decide

/-- A command that answers a word when its operand is legal, and takes the Illegal path when it is not. -/
theorem Effect.of_legal (s : State) (i : Instr) (v : Word) :
    Effect s i (if i.wellFormed then s.respond v else s.raiseIllegal) := by
  split
  · exact .responds i v
  · exact .illegal ‹_›

theorem execFdeUpd_effect {mod : BitVec 4} {x : Half} {s t : State} (h : execFdeUpd mod x s = .next t) :
    Effect s (.fdeUpd mod x) t := by
  simp only [execFdeUpd] at h
  split at h <;> cases h
  · exact .responds _ _
  · exact .updates mod x _ _

theorem execFdeRd_effect {mod sel : BitVec 4} {s t : State} (h : execFdeRd mod sel s = .next t) :
    Effect s (.fdeRd mod sel) t := by
  simp only [execFdeRd, fdeSelLegal_eq_wellFormed mod] at h
  split at h <;> cases h
  · split <;> exact .responds _ _
  · exact .illegal ‹_›

theorem execMotMove_effect {mode : BitVec 4} {d : Bool} {thresh : Half} {s t : State}
    (h : execMotMove mode d thresh s = .next t) : Effect s (.motMove mode d thresh) t := by
  cases hl : modeLegal mode with
  | true =>
    obtain ⟨m, hm, hs, -⟩ := Mode.ofCode_legal hl
    simp only [execMotMove, hl, hm, if_true] at h
    cases h
    exact .moves mode d thresh hs
  | false =>
    simp only [execMotMove, hl] at h
    cases h
    exact .illegal (by rw [WellFormed, ← modeLegal_eq_wellFormed, hl]; decide)

theorem execDbBlk_effect {p : BitVec 4} {s t : State} (h : execDbBlk p s = .next t) : Effect s (.dbBlk p) t := by
  by_cases hf : s.dbu.own = .free
  · cases hp : s.sample p <;> simp only [execDbBlk, hf, hp, if_true] at h <;> cases h
    · exact .answersLow p hf
    · exact .holds p hf
  · simp only [execDbBlk, hf, if_false] at h
    cases h
    exact .responds _ _

theorem execDbStart_effect {p : BitVec 4} {s t : State} (h : execDbStart p s = .next t) :
    Effect s (.dbStart p) t := by
  by_cases hf : s.dbu.own = .free
  · simp only [execDbStart, hf, if_true] at h
    cases h
    exact .starts p hf
  · simp only [execDbStart, hf, if_false] at h
    cases h
    exact .responds _ _

/-- If a command answers a next state, it is one of its effects. -/
theorem exec_effect {i : Instr} {s t : State} (h : exec i s = .next t) : Effect s i t := by
  cases i with
  | fdeUpd mod x => exact execFdeUpd_effect h
  | fdeRd mod sel => exact execFdeRd_effect h
  | motMove mode d thresh => exact execMotMove_effect h
  | motRd sel =>
    simp only [exec, execMotRd, motSelLegal_eq_wellFormed] at h
    cases h
    exact .of_legal s _ _
  | dbBlk p => exact execDbBlk_effect h
  | dbStart p => exact execDbStart_effect h
  | dbStat sel =>
    simp only [exec, execDbStat, dbSelLegal_eq_wellFormed] at h
    cases h
    exact .of_legal s _ _
  | nop | status | prbsRd => cases h; exact .responds _ _
  | clrerr => cases h; exact .clearsError
  | motStop => cases h; exact .halts
  | dbAdv => cases h; exact .advances _
  | dbClr => cases h; exact .clears _
  | prbsGen kind => cases h; exact .generates kind _
  | prbsSeed seed => cases h; exact .seeds seed

/-! ### What one step can do -/

/-- Everything a step can do, by the agent whose turn it takes. -/
inductive Move (s : State) : State → Prop
  | passes (hr : s.nextTurn.agent ≠ .resetLine) (hm : s.nextTurn.agent = .mtimer → s.mps.ival = .off) :
      Move s s.takeTurn
  | refuses {w : Word} {e : Reject} (hw : HostIssues w s) (hd : decode w = .error e) :
      Move s s.takeTurn.dropWrite.raiseIllegal
  | runs {w : Word} {i : Instr} {t : State} (hw : HostIssues w s) (hd : decode w = .ok i)
      (he : Effect s.takeTurn.dropWrite i t) : Move s t
  | ticksMotor (ha : s.nextTurn.agent = .mtimer) (hi : s.mps.ival ≠ .off) : Move s (s.takeTurn.setMps s.mps.tick)
  | ticksDebounce (ha : s.nextTurn.agent = .dbtimer) : Move s s.takeTurn.debounceTick
  | resets (ha : s.nextTurn.agent = .resetLine) : Move s s.takeTurn.externalReset

theorem State.motorTurn_off {s : State} (h : s.mps.ival = .off) : s.motorTurn = s := if_pos h

theorem State.motorTurn_on {s : State} (h : s.mps.ival ≠ .off) : s.motorTurn = s.setMps s.mps.tick := if_neg h

theorem State.debounceTurn_free {s : State} (h : s.dbu.own = .free) : s.debounceTurn = s := if_pos h

theorem State.debounceTurn_owned {s : State} (h : s.dbu.own ≠ .free) : s.debounceTurn = s.debounceTick := if_neg h

/-- A word that the HOST issues is refused, or its command runs. -/
theorem Move.of_issue {s t : State} {w : Word} (hw : HostIssues w s)
    (h : s.takeTurn.dropWrite.issue w = .next t) : Move s t := by
  cases hd : decode w with
  | error e =>
    simp only [State.issue, hd] at h
    cases h
    exact .refuses hw hd
  | ok i =>
    simp only [State.issue, hd] at h
    exact .runs hw hd (exec_effect h)

/-- If a step answers a next state, it is one of the moves. -/
theorem step_move {s t : State} (h : step s = .next t) : Move s t := by
  rcases step_cases h with
    ⟨ha, -, rfl⟩ | ⟨ha, hh, w, rest, hc, hi⟩ | ⟨ha, rfl⟩ | ⟨ha, rfl⟩ | ⟨ha, rfl⟩ | ⟨ha, rfl⟩
  · exact .passes (by simp [ha]) (by simp [ha])
  · exact .of_issue ⟨ha, hh, rest, hc⟩ hi
  · by_cases ho : s.mps.ival = .off
    · rw [State.motorTurn_off (s := s.takeTurn) ho]
      exact .passes (by simp [ha]) (fun _ => ho)
    · rw [State.motorTurn_on (s := s.takeTurn) ho]
      exact .ticksMotor ha ho
  · by_cases hf : s.dbu.own = .free
    · rw [State.debounceTurn_free (s := s.takeTurn) hf]
      exact .passes (by simp [ha]) (by simp [ha])
    · rw [State.debounceTurn_owned (s := s.takeTurn) hf]
      exact .ticksDebounce ha
  · exact .passes (by simp [ha]) (by simp [ha])
  · exact .resets ha

/-! ### The invariant, unit by unit -/

/-- What `State.Inv` asks of the motor sequencer (R40, R46 to R50). -/
structure Mps.Inv (softstart : Half) (m : Mps) : Prop where
  stopped : m.mode = .stop ↔ m.ival = .off
  enabled : m.oe = true ↔ m.ival = .fast
  counting : m.ival = .slow ↔ m.cdown ≠ 0#16
  countdown_le : m.cdown.toNat ≤ softstart.toNat
  threshold : m.mode ≠ .stop → m.thresh = 0#16 ∨ m.steps.toNat < m.thresh.toNat
  complete : m.done = true → m.mode = .stop

/-- What `State.Inv` asks of the debounce unit and the held port (R56, R189). -/
structure Dbu.Inv (blkWindow : Half) (held : Bool) (d : Dbu) : Prop where
  session : d.own = .session ↔ d.sstat = .running
  blocking : d.own = .blocking ↔ held = true
  window : d.own = .blocking → d.dbt.toNat < blkWindow.toNat

/-- What `State.Inv` asks of a module of a class (R35, R38, R149). -/
structure FdeModule.Inv (rotation : Bool) (f : FdeModule) : Prop where
  gradients : ∀ a : Fin 20,
    f.grads[a.val] = sgn ((f.samples[a.val].toNat : Int) - (f.samples[a.val + 1].toNat : Int))
  collision : rotation = false → f.result = collisionResult f.log0 f.log1
  rotation : rotation = true → f.result = 0#16 ∨ f.result = 1#16

/-- The invariant is that of the parameters and of each unit. -/
theorem State.inv_iff (s : State) : s.Inv ↔
    s.params.Legal ∧ s.mps.Inv s.params.softstart ∧ s.dbu.Inv s.params.blkWindow s.held ∧
      ∀ k : Fin 8, s.fde[k].Inv (isRotation k) := by
  constructor
  · rintro ⟨hp, hse, hbl, hw, hg, hc, hr, hst, hen, hco, hcd, hth, hdo⟩
    exact ⟨hp, ⟨hst, hen, hco, hcd, hth, hdo⟩, ⟨hse, hbl, hw⟩, fun k => ⟨hg k, hc k, hr k⟩⟩
  · rintro ⟨hp, ⟨hst, hen, hco, hcd, hth, hdo⟩, ⟨hse, hbl, hw⟩, hf⟩
    exact ⟨hp, hse, hbl, hw, fun k => (hf k).gradients, fun k => (hf k).collision, fun k => (hf k).rotation,
      hst, hen, hco, hcd, hth, hdo⟩

/-! ### The units' operations keep their part of the invariant -/

theorem Mps.reset_inv (softstart : Half) : Mps.reset.Inv softstart := by
  constructor <;> simp [Mps.reset]

theorem Dbu.reset_inv (blkWindow : Half) : Dbu.reset.Inv blkWindow false := by
  constructor <;> simp [Dbu.reset]

theorem FdeModule.reset_inv (rotation : Bool) : FdeModule.reset.Inv rotation := by
  constructor
  · intro a
    simp [FdeModule.reset, sgn_eq_zero]
  · intro _
    rfl
  · intro _
    exact .inl rfl

theorem Mps.move_inv {softstart : Half} {mode : Mode} (hm : mode ≠ .stop) (hs : 1 ≤ softstart.toNat) (d : Bool)
    (thresh : Half) (m : Mps) : (m.move softstart mode d thresh).Inv softstart := by
  have hne : softstart ≠ 0#16 := fun e => by simp [e] at hs
  have hth : thresh = 0#16 ∨ 0 < thresh.toNat := by
    by_cases h : thresh.toNat = 0
    · exact .inl (BitVec.eq_of_toNat_eq h)
    · exact .inr (by omega)
  cases d <;> constructor <;> simp [Mps.move, hm, hne, hth]

theorem Mps.halt_inv {softstart : Half} (m : Mps) : m.halt.Inv softstart := by
  constructor <;> simp [Mps.halt]

theorem Mps.forcedStop_inv {softstart : Half} (m : Mps) : m.forcedStop.Inv softstart := by
  constructor <;> simp [Mps.forcedStop]

/-- A tick that does not reach the threshold keeps a running maneuver's invariant. -/
theorem Mps.Inv.advance {softstart : Half} {m : Mps} (h : m.Inv softstart) (ht : m.advance.steps ≠ m.thresh) :
    m.advance.Inv softstart where
  stopped := h.stopped
  enabled := h.enabled
  counting := h.counting
  countdown_le := h.countdown_le
  complete := h.complete
  threshold hm := by
    have hne : m.advance.steps.toNat ≠ m.thresh.toNat := fun e => ht (BitVec.eq_of_toNat_eq e)
    have hst := m.advance_steps
    exact (h.threshold hm).imp id fun hlt => show m.advance.steps.toNat < m.thresh.toNat by omega

/-- A countdown step keeps the interval in agreement with CDOWN: it ends at 0 in FAST, and goes on in SLOW before. -/
theorem Mps.Inv.countDown {softstart : Half} {m : Mps} (h : m.Inv softstart) (hc : m.cdown ≠ 0#16) :
    m.countDown.Inv softstart := by
  have hslow : m.ival = .slow := h.counting.mpr hc
  have hmode : m.mode ≠ .stop := fun e => by simpa [hslow] using h.stopped.mp e
  rcases m.countDown_cases with ⟨-, e⟩ | ⟨h1, e⟩ <;> rw [e]
  · exact ⟨by simp [hmode], by simp, by simp, by simp, h.threshold, h.complete⟩
  · have hle := h.countdown_le
    have hne : m.cdown - 1#16 ≠ 0#16 := by bv_omega
    exact ⟨h.stopped, h.enabled, by simp [hslow, hne],
      show (m.cdown - 1#16).toNat ≤ softstart.toNat by bv_omega, h.threshold, h.complete⟩

theorem Mps.Inv.tick {softstart : Half} {m : Mps} (h : m.Inv softstart) : m.tick.Inv softstart := by
  rcases m.tick_cases with ⟨-, e⟩ | ⟨ht, hc, e⟩ | ⟨ht, -, e⟩ <;> rw [e]
  · exact m.advance.forcedStop_inv
  · exact (h.advance ht).countDown hc
  · exact h.advance ht

namespace Dbu

/-! A debounce unit of the invariant: with the port held or not, for the window of a blocking call. -/

section

variable {blkWindow : Half} {held : Bool} {d : Dbu}

theorem Inv.not_running (h : d.Inv blkWindow held) (ho : d.own ≠ .session) : d.sstat ≠ .running :=
  fun hr => ho (h.session.mpr hr)

theorem Inv.not_held (h : d.Inv blkWindow held) (ho : d.own ≠ .blocking) : held = false :=
  Bool.eq_false_iff.mpr fun hh => ho (h.blocking.mpr hh)

theorem acquireBlocking_inv (hs : d.sstat ≠ .running) (hw : 1 ≤ blkWindow.toNat) (p : BitVec 4) :
    (d.acquireBlocking p).Inv blkWindow true :=
  ⟨by simp [acquireBlocking, hs], by simp [acquireBlocking], fun _ => hw⟩

theorem release_inv (hs : d.sstat ≠ .running) : d.release.Inv blkWindow false := by
  constructor <;> simp [release, hs]

theorem startSession_inv (nbInc : Half) (p : BitVec 4) : (d.startSession nbInc p).Inv blkWindow false := by
  constructor <;> simp [startSession]

/-- Ending a running session releases the timer; such a session holds nothing. -/
theorem Inv.finish (h : d.Inv blkWindow held) (hr : d.sstat = .running) {st : SessionStatus} (hst : st ≠ .running) :
    (d.finish st).Inv blkWindow held := by
  have hh : held = false := h.not_held (by simp [h.session.mpr hr])
  constructor <;> simp [Dbu.finish, hst, hh]

theorem Inv.windowTest (h : d.Inv blkWindow held) (hr : d.sstat = .running) (nbWindow : Half) :
    (d.windowTest nbWindow).Inv blkWindow held := by
  rcases Nat.lt_or_ge d.dbt.toNat nbWindow.toNat with hw | hw
  · rwa [windowTest_running hw]
  · rw [windowTest_elapsed hw]
    exact h.finish hr (by decide)

theorem Inv.setNextAt (h : d.Inv blkWindow held) (n : Half) : ({ d with nextAt := n } : Dbu).Inv blkWindow held :=
  ⟨h.session, h.blocking, h.window⟩

theorem Inv.advance (h : d.Inv blkWindow held) (p : Params) (level : Bool) :
    (d.advance p level).Inv blkWindow held := by
  by_cases hr : d.sstat = .running
  · rcases d.advance_cases p level hr with ⟨-, -, e⟩ | ⟨-, -, e⟩ | ⟨-, e⟩ <;> rw [e]
    · exact h.finish hr (by decide)
    · exact (h.setNextAt (satAdd d.nextAt p.nbInc)).windowTest hr p.nbWindow
    · exact h.windowTest hr p.nbWindow
  · rwa [Dbu.advance, if_neg hr]

theorem Inv.clear (h : d.Inv blkWindow held) : d.clear.Inv blkWindow held := by
  unfold Dbu.clear
  split
  · next hs =>
    have ho : d.own ≠ .session := fun e => by simp [h.session.mp e] at hs
    exact ⟨by simp [ho], h.blocking, h.window⟩
  · exact h

/-- A count that stays inside the window of a blocking call. -/
theorem Inv.count (h : d.Inv blkWindow held) (hw : d.own = .blocking → (satInc d.dbt).toNat < blkWindow.toNat) :
    d.count.Inv blkWindow held :=
  ⟨h.session, h.blocking, hw⟩

end

end Dbu

@[simp] theorem FdeModule.logIdle_result (confirmed : Bool) (f : FdeModule) :
    (f.logIdle confirmed).result = f.result := by
  cases confirmed <;> rfl

/-- The gradient signs of the shifted rings are those of the shifted samples. -/
theorem FdeModule.Inv.update_gradients {f : FdeModule} {rotation : Bool} (h : f.Inv rotation) (steps x : Half)
    (a : Fin 20) : (f.update rotation steps x).grads[a.val] =
      sgn (((f.update rotation steps x).samples[a.val].toNat : Int) -
        ((f.update rotation steps x).samples[a.val + 1].toNat : Int)) := by
  simp only [update_grads, update_samples, shiftIn_succ x f.samples]
  obtain ⟨a, ha⟩ := a
  cases a with
  | zero => simp only [shiftIn_zero]
  | succ a =>
    simp only [shiftIn_succ _ f.grads, shiftIn_succ _ f.samples]
    exact h.gradients ⟨a, by omega⟩

theorem collisionResult_clear : collisionResult ⟨0#16, 0#8⟩ ⟨0#16, 0#8⟩ = 0#16 := rfl

theorem FdeModule.Inv.update {f : FdeModule} {rotation : Bool} (h : f.Inv rotation) (steps x : Half) :
    (f.update rotation steps x).Inv rotation := by
  refine ⟨h.update_gradients steps x, ?_, ?_⟩ <;>
    cases hd : timeoutDue rotation steps (f.update rotation steps x).idle <;> intro hr
  · rw [update_unexpired _ _ _ _ hd, hr, assess_collision, assess_log0, assess_log1]
  · obtain ⟨h0, h1, hres⟩ := update_expired _ _ _ _ hd
    rw [h0, h1, hres, collisionResult_clear]
  · rw [update_unexpired _ _ _ _ hd, hr, assess_rotation]
    split
    · exact .inr rfl
    · simpa using h.rotation hr
  · obtain ⟨-, -, hres⟩ := update_expired _ _ _ _ hd
    exact .inl hres

/-! ### The state's operations -/

namespace State

variable {s : State}

/-! RESP, ERR, PRG.L, the inputs, the script and the queue are outside the invariant. -/

@[simp] theorem respond_inv (v : Word) : (s.respond v).Inv ↔ s.Inv := by simp [inv_iff]
@[simp] theorem raiseIllegal_inv : s.raiseIllegal.Inv ↔ s.Inv := by simp [inv_iff]
@[simp] theorem clearError_inv : s.clearError.Inv ↔ s.Inv := by simp [inv_iff]
@[simp] theorem setPrg_inv (l : BitVec 15) : (s.setPrg l).Inv ↔ s.Inv := by simp [inv_iff]
@[simp] theorem takeTurn_inv : s.takeTurn.Inv ↔ s.Inv := by simp [inv_iff]
@[simp] theorem dropWrite_inv : s.dropWrite.Inv ↔ s.Inv := by simp [inv_iff]

theorem Inv.setMps (h : s.Inv) {m : Mps} (hm : m.Inv s.params.softstart) : (s.setMps m).Inv := by
  obtain ⟨hp, -, hd, hf⟩ := s.inv_iff.mp h
  exact (inv_iff _).mpr ⟨hp, hm, hd, hf⟩

theorem Inv.setModule (h : s.Inv) (k : Fin 8) {f : FdeModule} (hk : f.Inv (isRotation k)) :
    (s.setModule k f).Inv := by
  obtain ⟨hp, hm, hd, hf⟩ := s.inv_iff.mp h
  refine (inv_iff _).mpr ⟨hp, hm, hd, fun j => ?_⟩
  by_cases e : j = k
  · rwa [e, setModule_same]
  · rw [setModule_other f s e]
    exact hf j

theorem Inv.setDbu (h : s.Inv) {d : Dbu} (hd : d.Inv s.params.blkWindow s.held) : (s.setDbu d).Inv := by
  obtain ⟨hp, hm, -, hf⟩ := s.inv_iff.mp h
  exact (inv_iff _).mpr ⟨hp, hm, hd, hf⟩

/-- A DBU write and a write of PORT.HELD that agree. -/
theorem Inv.setDbu_setHeld (h : s.Inv) {d : Dbu} {v : Bool} (hd : d.Inv s.params.blkWindow v) :
    ((s.setDbu d).setHeld v).Inv := by
  obtain ⟨hp, hm, -, hf⟩ := s.inv_iff.mp h
  exact (inv_iff _).mpr ⟨hp, hm, hd, hf⟩

theorem Inv.completeBlocking (h : s.Inv) (ho : s.dbu.own = .blocking) (v : Word) :
    ((s.setDbu s.dbu.count).completeBlocking v).Inv := by
  obtain ⟨-, -, hd, -⟩ := s.inv_iff.mp h
  have hs : s.dbu.count.sstat ≠ .running := hd.not_running (by simp [ho])
  exact (respond_inv v).mpr (h.setDbu_setHeld (Dbu.release_inv hs))

theorem Inv.debounceTick (h : s.Inv) : s.debounceTick.Inv := by
  obtain ⟨-, -, hd, -⟩ := s.inv_iff.mp h
  rcases s.debounceTick_cases with ⟨ho, e⟩ | ⟨ho, -, e⟩ | ⟨ho, -, -, e⟩ | ⟨ho, -, hw, e⟩ <;> rw [e]
  · exact h.setDbu (hd.count fun hb => absurd hb ho)
  · exact h.completeBlocking ho _
  · exact h.completeBlocking ho _
  · exact h.setDbu (hd.count fun _ => hw)

theorem Inv.externalReset (h : s.Inv) : s.externalReset.Inv := by
  refine (inv_iff _).mpr ⟨h.params, Mps.reset_inv _, Dbu.reset_inv _, fun k => ?_⟩
  simpa using FdeModule.reset_inv (isRotation k)

end State

theorem Effect.inv {s t : State} {i : Instr} (he : Effect s i t) (h : s.Inv) : t.Inv := by
  obtain ⟨hp, hm, hd, hf⟩ := s.inv_iff.mp h
  cases he with
  | responds _ v => simpa
  | illegal _ => simpa
  | clearsError => simpa
  | updates _ x k v => simpa using h.setModule k ((hf k).update s.mps.steps x)
  | moves _ d thresh hmode => simpa using h.setMps (Mps.move_inv hmode hp.softstart_pos d thresh s.mps)
  | halts => simpa using h.setMps s.mps.halt_inv
  | holds p hfree =>
    have hs : s.dbu.sstat ≠ .running := hd.not_running (by simp [hfree])
    exact h.setDbu_setHeld (Dbu.acquireBlocking_inv hs hp.blkWindow_pos p)
  | answersLow p hfree =>
    have hs : (s.dbu.acquireBlocking p).sstat ≠ .running := hd.not_running (by simp [hfree])
    have hh : s.held = false := hd.not_held (by simp [hfree])
    exact (State.respond_inv _).mpr (h.setDbu (hh ▸ Dbu.release_inv hs))
  | starts p hfree =>
    have hh : s.held = false := hd.not_held (by simp [hfree])
    exact (State.respond_inv _).mpr (h.setDbu (hh ▸ Dbu.startSession_inv s.params.nbInc p))
  | advances v => simpa using h.setDbu (hd.advance s.params (s.sample s.dbu.spin))
  | clears v => simpa using h.setDbu hd.clear
  | generates _ v => simpa
  | seeds l => simpa

theorem Move.inv {s t : State} (hm : Move s t) (h : s.Inv) : t.Inv := by
  have ht : s.takeTurn.Inv := State.takeTurn_inv.mpr h
  obtain ⟨-, hmps, -, -⟩ := s.inv_iff.mp h
  cases hm with
  | passes _ _ => exact ht
  | refuses _ _ => simpa
  | runs _ _ he => exact he.inv (by simpa)
  | ticksMotor _ _ => exact ht.setMps hmps.tick
  | ticksDebounce _ => exact ht.debounceTick
  | resets _ => exact ht.externalReset

end Sys2Proof.Machine

namespace Sys2Proof.Proofs

open Sys2Proof.Machine Sys2Proof.Claims

/-- Settles O59: a step is one of the moves of `Move`, and every move keeps each unit's part of the invariant. -/
theorem stepKeepsTheInvariant : Obligations.StepKeepsTheInvariant := by
  intro s t hs h
  exact (step_move h).inv hs

end Sys2Proof.Proofs

namespace Sys2Proof

/-! ### What a decoded word is -/

theorem formatZ_ok {i j : Instr} {w : Word} (h : formatZ i w = .ok j) : j = i ∧ field 0 24 w = 0#24 := by
  unfold formatZ at h
  split at h <;> cases h
  exact ⟨rfl, ‹_›⟩

theorem formatS4_ok {legal : BitVec 4 → Bool} {i : BitVec 4 → Instr} {j : Instr} {w : Word}
    (h : formatS4 legal i w = .ok j) : ∃ v, legal v = true ∧ j = i v := by
  unfold formatS4 at h
  split at h
  · split at h <;> cases h
    exact ⟨_, ‹_›, rfl⟩
  · cases h

theorem formatFU_ok {i : Instr} {w : Word} (h : formatFU w = .ok i) : ∃ mod x, i = .fdeUpd mod x := by
  unfold formatFU at h
  split at h <;> cases h
  exact ⟨_, _, rfl⟩

theorem formatFR_ok {i : Instr} {w : Word} (h : formatFR w = .ok i) :
    ∃ mod sel, fdeSelLegal sel = true ∧ i = .fdeRd mod sel := by
  unfold formatFR at h
  split at h
  · split at h <;> cases h
    exact ⟨_, _, ‹_›, rfl⟩
  · cases h

theorem formatMM_ok {i : Instr} {w : Word} (h : formatMM w = .ok i) :
    ∃ mode d thresh, modeLegal mode = true ∧ i = .motMove mode d thresh := by
  unfold formatMM at h
  split at h
  · split at h <;> cases h
    exact ⟨_, _, _, ‹_›, rfl⟩
  · cases h

theorem formatK2_ok {i : Instr} {w : Word} (h : formatK2 w = .ok i) : ∃ kind, i = .prbsGen kind := by
  unfold formatK2 at h
  split at h <;> cases h
  exact ⟨_, rfl⟩

theorem formatSD_ok {i : Instr} {w : Word} (h : formatSD w = .ok i) : ∃ seed, i = .prbsSeed seed := by
  unfold formatSD at h
  split at h <;> cases h
  exact ⟨_, rfl⟩

/-- A body decodes to a legal command of its opcode. -/
theorem decodeBody_ok {o : Opcode} {i : Instr} {w : Word} (h : decodeBody o w = .ok i) :
    i.opcode = o ∧ WellFormed i := by
  cases o with
  | nop | status | clrerr | motStop | dbAdv | dbClr | prbsRd =>
    obtain ⟨rfl, -⟩ := formatZ_ok h
    exact ⟨rfl, rfl⟩
  | fdeUpd =>
    obtain ⟨mod, x, rfl⟩ := formatFU_ok h
    exact ⟨rfl, rfl⟩
  | fdeRd =>
    obtain ⟨mod, sel, hs, rfl⟩ := formatFR_ok h
    exact ⟨rfl, (Machine.fdeSelLegal_eq_wellFormed mod sel).symm.trans hs⟩
  | motMove =>
    obtain ⟨mode, d, thresh, hm, rfl⟩ := formatMM_ok h
    exact ⟨rfl, (Machine.modeLegal_eq_wellFormed mode d thresh).symm.trans hm⟩
  | motRd =>
    obtain ⟨sel, hs, rfl⟩ := formatS4_ok h
    exact ⟨rfl, (Machine.motSelLegal_eq_wellFormed sel).symm.trans hs⟩
  | dbStat =>
    obtain ⟨sel, hs, rfl⟩ := formatS4_ok h
    exact ⟨rfl, (Machine.dbSelLegal_eq_wellFormed sel).symm.trans hs⟩
  | dbBlk | dbStart =>
    obtain ⟨p, -, rfl⟩ := formatS4_ok h
    exact ⟨rfl, rfl⟩
  | prbsGen =>
    obtain ⟨kind, rfl⟩ := formatK2_ok h
    exact ⟨rfl, rfl⟩
  | prbsSeed =>
    obtain ⟨seed, rfl⟩ := formatSD_ok h
    exact ⟨rfl, rfl⟩

/-- A word that decodes has the opcode of its command, and its body decodes to it. -/
theorem decode_ok {i : Instr} {w : Word} (h : decode w = .ok i) :
    opField w = i.opcode.code ∧ decodeBody i.opcode w = .ok i := by
  simp only [decode] at h
  split at h
  · cases h
  · next o ho =>
    obtain ⟨rfl, -⟩ := decodeBody_ok h
    exact ⟨(code_of_opcodeOf ho).symm, h⟩

theorem decode_wellFormed {i : Instr} {w : Word} (h : decode w = .ok i) : WellFormed i := by
  obtain ⟨-, hb⟩ := decode_ok h
  exact (decodeBody_ok hb).2

/-- CLRERR is one word. -/
theorem decode_clrerr {w : Word} (h : decode w = .ok .clrerr) : w = 0x02000000#32 := by
  obtain ⟨ho, hb⟩ := decode_ok h
  obtain ⟨-, hz⟩ := formatZ_ok hb
  rw [← word_split w, ho, hz]
  rfl

end Sys2Proof

namespace Sys2Proof.Machine

open Sys2Proof.Claims

/-! ### What the ticks write and leave -/

theorem takeTurn_eq_atTurn (s : State) : s.takeTurn = atTurn s := rfl

namespace Mps

theorem countDown_eq (m : Mps) : m.countDown =
    { m with cdown := m.countDown.cdown, ival := m.countDown.ival, oe := m.countDown.oe } := by
  rcases m.countDown_cases with ⟨-, e⟩ | ⟨-, e⟩ <;> rw [e]

/-- A tick that does not force the stop writes only PHASE, STEPS and the soft start's registers (R236, R238). -/
theorem tick_unforced {m : Mps} (h : m.advance.steps ≠ m.thresh) : m.tick =
    { m.advance with cdown := m.tick.cdown, ival := m.tick.ival, oe := m.tick.oe } := by
  rcases m.tick_cases with ⟨e, -⟩ | ⟨-, -, e⟩ | ⟨-, -, e⟩
  · exact absurd e h
  · rw [e]
    exact m.advance.countDown_eq
  · rw [e]

theorem tick_forced {m : Mps} (h : m.advance.steps = m.thresh) : m.tick = m.advance.forcedStop := if_pos h

/-- Every tick advances PHASE and STEPS and leaves PREV and THRESH. -/
theorem tick_eq (m : Mps) : m.tick =
    { m.tick with phase := m.phase + 1#3, steps := satInc m.steps, prev := m.prev, thresh := m.thresh } := by
  by_cases h : m.advance.steps = m.thresh
  · rw [tick_forced h]
    rfl
  · rw [tick_unforced h]
    rfl

@[simp] theorem tick_phase (m : Mps) : m.tick.phase = m.phase + 1#3 := (congrArg Mps.phase m.tick_eq :)
@[simp] theorem tick_steps (m : Mps) : m.tick.steps = satInc m.steps := (congrArg Mps.steps m.tick_eq :)
@[simp] theorem tick_prev (m : Mps) : m.tick.prev = m.prev := (congrArg Mps.prev m.tick_eq :)
@[simp] theorem tick_thresh (m : Mps) : m.tick.thresh = m.thresh := (congrArg Mps.thresh m.tick_eq :)

end Mps

namespace State

/-- A debounce tick writes only OWN, DBT, PORT.HELD and RESP. -/
theorem debounceTick_eq (s : State) : s.debounceTick = { s with
    dbu := { s.dbu with own := s.debounceTick.dbu.own, dbt := s.debounceTick.dbu.dbt }
    held := s.debounceTick.held
    resp := s.debounceTick.resp } := by
  rcases s.debounceTick_cases with ⟨-, e⟩ | ⟨-, -, e⟩ | ⟨-, -, -, e⟩ | ⟨-, -, -, e⟩ <;> rw [e] <;> rfl

/-- Outside a blocking call a debounce tick only counts. -/
theorem debounceTick_not_blocking {s : State} (h : s.dbu.own ≠ .blocking) :
    s.debounceTick = s.setDbu s.dbu.count := by
  rcases s.debounceTick_cases with ⟨-, e⟩ | ⟨hb, -⟩ | ⟨hb, -⟩ | ⟨hb, -⟩
  · exact e
  all_goals exact absurd hb h

@[simp] theorem debounceTick_err (s : State) : s.debounceTick.err = s.err :=
  (congrArg State.err s.debounceTick_eq :)
@[simp] theorem debounceTick_mps (s : State) : s.debounceTick.mps = s.mps :=
  (congrArg State.mps s.debounceTick_eq :)
@[simp] theorem debounceTick_script (s : State) : s.debounceTick.script = s.script :=
  (congrArg State.script s.debounceTick_eq :)

theorem debounceTurn_eq (s : State) : s.debounceTurn = { s with
    dbu := { s.dbu with own := s.debounceTurn.dbu.own, dbt := s.debounceTurn.dbu.dbt }
    held := s.debounceTurn.held
    resp := s.debounceTurn.resp } := by
  by_cases h : s.dbu.own = .free
  · rw [debounceTurn_free h]
  · rw [debounceTurn_owned h]
    exact s.debounceTick_eq

end State

/-! ### What the commands write and leave -/

/-- A legal command leaves ERR, or is CLRERR and clears it. -/
theorem Effect.err {s t : State} {i : Instr} (he : Effect s i t) (hi : WellFormed i) :
    t.err = s.err ∨ i = .clrerr ∧ t.err = false := by
  cases he with
  | clearsError => exact .inr ⟨rfl, rfl⟩
  | illegal hn => exact absurd hi hn
  | _ => exact .inl rfl

/-- Only MOT_MOVE and MOT_STOP write the motor sequencer. -/
theorem Effect.mps {s t : State} {i : Instr} (he : Effect s i t) :
    t.mps = s.mps ∨
    (∃ code d thresh mode, i = .motMove code d thresh ∧ t.mps = s.mps.move s.params.softstart mode d thresh) ∨
    i = .motStop ∧ t.mps = s.mps.halt := by
  cases he with
  | moves code d thresh hm => exact .inr (.inl ⟨code, d, thresh, _, rfl, rfl⟩)
  | halts => exact .inr (.inr ⟨rfl, rfl⟩)
  | _ => exact .inl rfl

theorem Effect.phase {s t : State} {i : Instr} (he : Effect s i t) : t.mps.phase = s.mps.phase := by
  rcases he.mps with e | ⟨_, _, _, _, -, e⟩ | ⟨-, e⟩ <;> rw [e] <;> rfl

theorem Effect.done {s t : State} {i : Instr} (he : Effect s i t) :
    t.mps.done = s.mps.done ∨ t.mps.done = false ∧ ∃ code d thresh, i = .motMove code d thresh := by
  rcases he.mps with e | ⟨code, d, thresh, mode, hi, e⟩ | ⟨-, e⟩ <;> rw [e]
  · exact .inl rfl
  · exact .inr ⟨rfl, code, d, thresh, hi⟩
  · exact .inl rfl

end Sys2Proof.Machine

namespace Sys2Proof.Proofs

open Sys2Proof.Machine Sys2Proof.Claims

/-! ### ERR, PHASE and DONE over a step -/

/-- A flag that a step leaves meets any condition on how it is set and cleared. -/
theorem flag_kept {before after : Bool} (e : after = before) {P Q : Prop} :
    (before = false → after = true → P) ∧ (before = true → after = false → Q) := by
  subst e
  cases after <;> simp

/-- Settles O11: a decoded command is well-formed, so of the moves only a refused word sets ERR, and only CLRERR's one
word and the reset clear it. -/
theorem errIsSticky : Obligations.ErrIsSticky := by
  intro s t h
  cases step_move h with
  | passes _ _ => exact flag_kept rfl
  | refuses hw hd => exact ⟨fun _ _ => ⟨_, _, hw, hd⟩, by simp⟩
  | runs hw hd he =>
    rcases he.err (decode_wellFormed hd) with e | ⟨rfl, e⟩
    · exact flag_kept e
    · rw [← decode_clrerr hd]
      exact ⟨by simp [e], fun _ _ => .inl hw⟩
  | ticksMotor _ _ => exact flag_kept rfl
  | ticksDebounce _ => exact flag_kept s.takeTurn.debounceTick_err
  | resets ha => simp [ha]

/-- Settles O31: every tick advances PHASE by one, and no command's effect writes it. -/
theorem phaseAdvancesOnlyByMotorTicks : Obligations.PhaseAdvancesOnlyByMotorTicks := by
  intro s t h
  cases step_move h with
  | passes hr hm => exact ⟨fun ha hi => absurd (hm ha) hi, fun ha => absurd ha hr, fun _ _ => rfl⟩
  | refuses hw hd => simp [hw.1]
  | runs hw hd he => simp [hw.1, he.phase]
  | ticksMotor ha hi => simp [ha, hi, BitVec.toNat_add]
  | ticksDebounce ha => simp [ha]
  | resets ha => simp [ha, Mps.reset]

/-- Settles O32: a tick that does not reach the threshold leaves DONE, the forced stop at STEPS = THRESH sets it, and of
the commands only MOT_MOVE writes it. -/
theorem doneIsSetByForcedStopOnly : Obligations.DoneIsSetByForcedStopOnly := by
  intro s t h
  cases step_move h with
  | passes _ _ => exact flag_kept rfl
  | refuses _ _ => exact flag_kept rfl
  | @runs w _ _ hw hd he =>
    rcases he.done with e | ⟨e, code, d, thresh, rfl⟩
    · exact flag_kept e
    · exact ⟨by simp [e], fun _ _ => .inr ⟨w, code, d, thresh, hw, hd⟩⟩
  | ticksMotor ha _ =>
    by_cases hs : s.mps.advance.steps = s.mps.thresh
    · simp only [State.setMps_mps, Mps.tick_forced hs]
      exact ⟨fun _ _ => ⟨ha, hs, rfl⟩, fun _ hf => by cases hf⟩
    · exact flag_kept (congrArg Mps.done (Mps.tick_unforced hs) :)
  | ticksDebounce _ => exact flag_kept (congrArg Mps.done s.takeTurn.debounceTick_mps)
  | resets ha => simp [ha, Mps.reset]

/-! ### Disabled agents, and what each timer writes -/

/-- Settles O5: each disabled agent's turn is only the taking of the turn. -/
theorem disabledAgentsChangeNothing : Obligations.DisabledAgentsChangeNothing := by
  intro s
  refine ⟨fun ha hh => step_host_held ha hh, fun ha hi => ?_, fun ha hf => ?_⟩
  · rw [step_mtimer ha, State.motorTurn_off (s := s.takeTurn) hi, takeTurn_eq_atTurn]
  · rw [step_dbtimer ha, State.debounceTurn_free (s := s.takeTurn) hf, takeTurn_eq_atTurn]

/-- Settles O6: the motor's turn is a write of the MPS alone, and a debounce tick outside a blocking call only
counts. -/
theorem timersWriteOnlyTheirRegisters : Obligations.TimersWriteOnlyTheirRegisters := by
  intro s
  refine ⟨fun ha => step_env ha, fun ha => ?_, fun ha => ?_⟩
  · rw [step_mtimer ha]
    by_cases hi : s.mps.ival = .off
    · rw [State.motorTurn_off (s := s.takeTurn) hi]
      exact ⟨s.mps, rfl, rfl, rfl⟩
    · rw [State.motorTurn_on (s := s.takeTurn) hi]
      exact ⟨s.mps.tick, rfl, s.mps.tick_prev, s.mps.tick_thresh⟩
  · refine ⟨_, step_dbtimer ha, s.takeTurn.debounceTurn_eq, fun hb => ?_⟩
    by_cases hf : s.dbu.own = .free
    · rw [State.debounceTurn_free (s := s.takeTurn) hf]
      exact ⟨rfl, rfl, rfl⟩
    · rw [State.debounceTurn_owned (s := s.takeTurn) hf, State.debounceTick_not_blocking (s := s.takeTurn) hb]
      exact ⟨rfl, rfl, rfl⟩

end Sys2Proof.Proofs

namespace Sys2Proof.Claims

open Sys2Proof.Machine

/-! ### The sample ring with a write index (R34) -/

theorem Ring.push_age_zero (r : Ring) (x : Half) : (r.push x).age 0 = x := by
  simp [Ring.age, Ring.push]

/-- A push makes every sample one age older: `(w + 1) - (a + 1)` is the slot `w - a`, which the push does not write. -/
theorem Ring.push_age_succ (r : Ring) (x : Half) (a : Fin 20) : (r.push x).age a.succ = r.age a.castSucc := by
  have hslot : r.write + 1 - a.succ = r.write - a.castSucc := by
    rw [← Fin.coeSucc_eq_succ, add_sub_add_right_eq_sub]
  have hne : r.write + 1 ≠ r.write - a.castSucc := by
    intro e
    have hz : a.castSucc + 1 = 0 := by
      rw [eq_sub_iff_add_eq, add_assoc, add_eq_left, add_comm] at e
      exact e
    exact Fin.succ_ne_zero a (by rw [← Fin.coeSucc_eq_succ, hz])
  have hval : (r.write + 1).val ≠ (r.write - a.castSucc).val := fun e => hne (Fin.ext e)
  simp only [Ring.age, Ring.push, hslot]
  exact Vector.getElem_set_ne _ _ hval

/-! ### The rotating form of the PRBS register (R63) -/

/-- The fresh bit stands at the new pointer's predecessor, and is formed from the bits at ages 14 and 13. -/
theorem Rotating.step_bit_zero (r : Rotating) : r.step.bit 0 = (r.bit 14 ^^ r.bit 13) := by
  have h14 : r.ptr - 1 - 14 = r.ptr := by
    rw [sub_sub]
    exact sub_zero r.ptr
  have h13 : r.ptr - 1 - 13 = r.ptr + 1 := by
    rw [sub_sub]
    exact sub_eq_add_neg r.ptr 14
  simp only [Rotating.bit, h14, h13]
  simp [Rotating.step]

/-- Every other bit moves up one place: its cell is read again, from a pointer one further. -/
theorem Rotating.step_bit_succ (r : Rotating) (i : Fin 14) : r.step.bit i.succ = r.bit i.castSucc := by
  have hcell : r.ptr + 1 - 1 - i.succ = r.ptr - 1 - i.castSucc := by
    rw [← Fin.coeSucc_eq_succ, add_sub_cancel_right, sub_sub, add_comm 1]
  have hne : r.ptr ≠ r.ptr - 1 - i.castSucc := by
    rw [sub_sub, add_comm, Fin.coeSucc_eq_succ, ne_eq, eq_comm, sub_eq_self]
    exact Fin.succ_ne_zero i
  have hval : r.ptr.val ≠ (r.ptr - 1 - i.castSucc).val := fun e => hne (Fin.ext e)
  simp only [Rotating.bit, Rotating.step, hcell]
  exact Vector.getElem_set_ne _ _ hval

end Sys2Proof.Claims

namespace Sys2Proof.Proofs

open Sys2Proof.Machine Sys2Proof.Claims

/-- Settles O22: an update shifts the samples as the ring's push does, age by age. -/
theorem circularBufferImplementsTheSampleRing : Obligations.CircularBufferImplementsTheSampleRing := by
  intro s k x r hr
  refine ⟨_, execFdeUpd_id k x s, fun a => ?_⟩
  rw [State.respond_fde, State.setModule_same, FdeModule.update_samples]
  cases a using Fin.cases with
  | zero => exact (shiftIn_zero x _ (by decide)).trans (r.push_age_zero x).symm
  | succ a =>
    rw [Ring.push_age_succ, ← hr]
    exact shiftIn_succ x _ a.val _

/-- Settles O50: the fresh bit and the moved bits of the rotating form are those of `genBit`. -/
theorem rotatingFormImplementsTheRegister : Obligations.RotatingFormImplementsTheRegister := by
  intro r l hl i
  cases i using Fin.cases with
  | zero =>
    rw [Rotating.step_bit_zero, ← hl, ← hl]
    exact genBit_zero_bit l
  | succ i =>
    rw [Rotating.step_bit_succ, ← hl]
    exact genBit_succ_bit l i.val i.isLt

end Sys2Proof.Proofs

namespace Sys2Proof.Machine

open Sys2Proof.Claims

/-! ### The motor outputs -/

theorem Mps.mout_latches (m : Mps) : m.mout.extractLsb' 0 6 = latches m.mode m.phase := by
  rw [Mps.mout, field_append_low _ _ (by decide), field_whole]

/-- The 72 entries of the output table (R51, R52, V-MPS-1). -/
theorem latches_table : ∀ p ∈ modeCodes, ∀ phase : BitVec 3,
    moutTable[p.2.toNat]?.bind (fun row => row[phase.toNat]?) = some (latches p.1 phase) := by
  decide

/-! ### A maneuver of threshold 0 (R46) -/

/-- A running maneuver of mode `mode` with threshold 0. -/
structure Mps.Endless (mode : Mode) (m : Mps) : Prop where
  mode_eq : m.mode = mode
  thresh : m.thresh = 0#16
  running : m.ival ≠ .off
  done : m.done = false

/-- STEPS never counts to 0, so a tick never forces the stop. -/
theorem Mps.Endless.tick {mode : Mode} {m : Mps} (h : m.Endless mode) : m.tick.Endless mode := by
  have hs : m.advance.steps ≠ m.thresh := by
    intro e
    have hz : (0#16).toNat = min (m.steps.toNat + 1) 65535 := by rw [← m.advance_steps, e, h.thresh]
    simp only [BitVec.toNat_ofNat] at hz
    omega
  have hi : m.tick.ival ≠ .off := by
    rcases m.tick_cases with ⟨e, -⟩ | ⟨-, -, e⟩ | ⟨-, -, e⟩
    · exact absurd e hs
    · rcases m.advance.countDown_cases with ⟨-, e'⟩ | ⟨-, e'⟩ <;> rw [e, e']
      · simp
      · exact h.running
    · rw [e]
      exact h.running
  exact ⟨(congrArg Mps.mode (tick_unforced hs)).trans h.mode_eq, m.tick_thresh.trans h.thresh, hi,
    (congrArg Mps.done (tick_unforced hs)).trans h.done⟩

theorem Mps.move_endless {mode : Mode} (softstart : Half) (d : Bool) (m : Mps) :
    (m.move softstart mode d 0#16).Endless mode := by
  cases d <;> exact ⟨rfl, rfl, by simp [Mps.move], rfl⟩

/-- The turn of a timer or of the inputs goes on to the next turn of the script, and moves the motor sequencer by a
tick exactly when it is MTIMER's and the interval is not OFF. -/
theorem step_tick {s : State} {q : Turn} {qs : List Turn} (hs : s.script = q :: qs)
    (hq : q.agent = .mtimer ∨ q.agent = .dbtimer ∨ q.agent = .env) :
    ∃ t, step s = .next t ∧ t.script = qs ∧
      t.mps = if q.agent = .mtimer ∧ s.mps.ival ≠ .off then s.mps.tick else s.mps := by
  have ha : s.nextTurn.agent = q.agent := congrArg Turn.agent (State.nextTurn_scripted hs)
  rcases hq with hq | hq | hq <;> simp only [hq] at ha ⊢
  · refine ⟨_, step_mtimer ha, ?_⟩
    by_cases hi : s.mps.ival = .off
    · rw [State.motorTurn_off (s := s.takeTurn) hi]
      simp [hi, hs]
    · rw [State.motorTurn_on (s := s.takeTurn) hi]
      simp [hi, hs]
  · refine ⟨_, step_dbtimer ha, ?_⟩
    rw [State.debounceTurn_eq]
    simp [hs]
  · exact ⟨_, step_env ha, by simp [hs]⟩

theorem countOf_cons (a : Agent) (q : Turn) (qs : List Turn) :
    countOf a (q :: qs) = countOf a qs + if q.agent = a then 1 else 0 := by
  simp [countOf, List.countP_cons]

/-- One tick keeps an endless maneuver and counts in STEPS when it is the motor's. -/
theorem step_endless {mode : Mode} {s : State} {q : Turn} {qs : List Turn} (hs : s.script = q :: qs)
    (hq : q.agent = .mtimer ∨ q.agent = .dbtimer ∨ q.agent = .env) (he : s.mps.Endless mode) :
    ∃ t, step s = .next t ∧ t.script = qs ∧ t.mps.Endless mode ∧
      t.mps.steps.toNat = min (s.mps.steps.toNat + if q.agent = .mtimer then 1 else 0) 65535 := by
  obtain ⟨t, ht, hts, htm⟩ := step_tick hs hq
  refine ⟨t, ht, hts, ?_⟩
  by_cases ha : q.agent = .mtimer
  · rw [if_pos ⟨ha, he.running⟩] at htm
    rw [htm, if_pos ha]
    exact ⟨he.tick, (congrArg BitVec.toNat s.mps.tick_steps).trans (satInc_toNat _)⟩
  · rw [if_neg (by simp [ha])] at htm
    rw [htm, if_neg ha]
    exact ⟨he, by omega⟩

/-- Any mix of ticks keeps an endless maneuver and counts its motor ticks in STEPS, saturating. -/
theorem runFor_endless {mode : Mode} (qs : List Turn) (hq : OnlyTicks qs) {s : State} {rest : List Turn}
    (hs : s.script = qs ++ rest) (he : s.mps.Endless mode) :
    ∃ t, runFor qs.length s = .next t ∧ t.mps.Endless mode ∧
      t.mps.steps.toNat = min (s.mps.steps.toNat + countOf .mtimer qs) 65535 := by
  induction qs generalizing s with
  | nil =>
    have hc : countOf .mtimer [] = 0 := rfl
    exact ⟨s, rfl, he, by omega⟩
  | cons q qs ih =>
    obtain ⟨u, hu, hus, hue, hun⟩ := step_endless hs (hq q List.mem_cons_self) he
    obtain ⟨t, ht, hte, htn⟩ := ih (fun p hp => hq p (List.mem_cons_of_mem q hp)) hus hue
    refine ⟨t, by simp only [List.length_cons, runFor, hu, ht], hte, ?_⟩
    rw [htn, hun, countOf_cons]
    omega

/-- MOT_MOVE with the code of a mode other than STOP. -/
theorem exec_motMove_mode {p : Mode × BitVec 4} (hp : p ∈ modeCodes) (hm : p.1 ≠ .stop) (d : Bool) (thresh : Half)
    (s : State) : exec (.motMove p.2 d thresh) s =
      .next ((s.setMps (s.mps.move s.params.softstart p.1 d thresh)).respond 0#32) := by
  have legal : ∀ p ∈ modeCodes, p.1 ≠ .stop → modeLegal p.2 = true ∧ Mode.ofCode p.2 = some p.1 := by decide
  obtain ⟨hl, hc⟩ := legal p hp hm
  simp only [exec, execMotMove, hl, hc, if_true]

end Sys2Proof.Machine

namespace Sys2Proof.Proofs

open Sys2Proof.Machine Sys2Proof.Claims

/-- Settles O26: `mout` is OE above the latches, and the latches are the table's entries. -/
theorem motorOutputsFollowTheTable : Obligations.MotorOutputsFollowTheTable := by
  intro m p hp hm
  obtain ⟨row, hrow, hentry⟩ := Option.bind_eq_some_iff.mp (latches_table p hp m.phase)
  exact ⟨row, hrow, by rw [hentry, m.mout_latches, hm], m.mout_oe⟩

/-- Settles O30: MOT_MOVE starts an endless maneuver, and the run of ticks keeps it, by induction on the script. -/
theorem thresholdZeroNeverEnds : Obligations.ThresholdZeroNeverEnds := by
  intro s p d qs rest hp hm hs hq
  obtain ⟨t, ht, hte, hts⟩ := runFor_endless qs hq
    (s := (s.setMps (s.mps.move s.params.softstart p.1 d 0#16)).respond 0#32) hs (Mps.move_endless _ d _)
  refine ⟨_, t, exec_motMove_mode hp hm d 0#16 s, ht, hte.mode_eq, hte.running, hte.done, ?_⟩
  simpa [Mps.move] using hts

end Sys2Proof.Proofs

namespace Sys2Proof.Machine

/-! ### The turn that a step takes -/

theorem State.takeTurn_scripted {s : State} {t : Turn} {rest : List Turn} (h : s.script = t :: rest) :
    s.takeTurn = { s with script := rest, turns := s.turns + 1, din := t.din, frc := t.frc } := by
  simp only [State.takeTurn, State.nextTurn_scripted h, h, List.tail_cons]

theorem State.takeTurn_free {s : State} (h : s.script = []) : s.takeTurn =
    { s with turns := s.turns + 1, din := (Config.freeTurn s.turns).din, frc := (Config.freeTurn s.turns).frc } := by
  simp only [State.takeTurn, State.nextTurn_free h, h, List.tail_nil]

/-! ### The HOST's turn goes on, but for a partial write -/

theorem State.issue_goes_on (w : Word) (s : State) : ∃ t, s.issue w = .next t := by
  cases hd : decode w with
  | ok i =>
    simp only [State.issue, hd]
    exact exec_goes_on i s
  | error e => exact ⟨s.raiseIllegal, by simp only [State.issue, hd]⟩

theorem step_host_partial {s : State} {rest : List HostWrite} (ha : s.nextTurn.agent = .host) (hh : s.held = false)
    (hc : s.cmds = .partialWord :: rest) : step s = .fault .partialCommandWrite := by
  simp [step, ha, State.act, State.hostTurn, hh, hc]

theorem step_host_goes_on {s : State} (ha : s.nextTurn.agent = .host) (hp : ¬ s.PartialWriteDue) : s.GoesOn := by
  cases hh : s.held with
  | true => exact ⟨_, step_host_held ha hh⟩
  | false =>
    cases hc : s.cmds with
    | nil => exact ⟨_, step_host_idle ha hc⟩
    | cons c rest =>
      cases c with
      | word w =>
        obtain ⟨t, ht⟩ := s.takeTurn.dropWrite.issue_goes_on w
        exact ⟨t, (step_host_word ha hh hc).trans ht⟩
      | partialWord => exact absurd ⟨ha, hh, rest, hc⟩ hp

/-! ### The read commands (R85) -/

/-- The word that a read command answers; 0 for a command that reads nothing. -/
def readWord (s : State) : Instr → Word
  | .status => zext (BitVec.ofBool s.err)
  | .fdeRd mod sel => (moduleIndex mod).elim 0#32 fun k => s.fde[k].read sel
  | .motRd sel => s.mps.read sel
  | .dbStat sel => s.dbu.read sel
  | .prbsRd => zext s.prg
  | _ => 0#32

/-- No read command reads RESP. -/
theorem readWord_respond (s : State) (v : Word) (i : Instr) : readWord (s.respond v) i = readWord s i := by
  cases i <;> rfl

theorem execFdeRd_legal {sel : BitVec 4} (h : fdeSelLegal sel = true) (mod : BitVec 4) (s : State) :
    execFdeRd mod sel s = .next (s.respond (readWord s (.fdeRd mod sel))) := by
  simp only [execFdeRd, h, if_true, readWord]
  cases moduleIndex mod <;> rfl

theorem execMotRd_legal {sel : BitVec 4} (h : motSelLegal sel = true) (s : State) :
    execMotRd sel s = .next (s.respond (s.mps.read sel)) := by
  simp only [execMotRd, h, if_true]

theorem execDbStat_legal {sel : BitVec 4} (h : dbSelLegal sel = true) (s : State) :
    execDbStat sel s = .next (s.respond (s.dbu.read sel)) := by
  simp only [execDbStat, h, if_true]

/-- A legal read command only responds, with its word. -/
theorem exec_read {i : Instr} (hw : WellFormed i)
    (hi : i = .status ∨ (∃ m e, i = .fdeRd m e) ∨ (∃ e, i = .motRd e) ∨ (∃ e, i = .dbStat e) ∨ i = .prbsRd)
    (s : State) : exec i s = .next (s.respond (readWord s i)) := by
  rcases hi with rfl | ⟨mod, sel, rfl⟩ | ⟨sel, rfl⟩ | ⟨sel, rfl⟩ | rfl
  · rfl
  · exact execFdeRd_legal ((fdeSelLegal_eq_wellFormed mod sel).trans hw) mod s
  · exact execMotRd_legal ((motSelLegal_eq_wellFormed sel).trans hw) s
  · exact execDbStat_legal ((dbSelLegal_eq_wellFormed sel).trans hw) s
  · rfl

end Sys2Proof.Machine

namespace Sys2Proof.Proofs

open Sys2Proof.Machine Sys2Proof.Claims

/-- Settles O7: every agent but the HOST moves to a next state, and so does the HOST with a whole word, with nothing to
write, or while the port is held. -/
theorem onlyAPartialWriteStops : Obligations.OnlyAPartialWriteStops := by
  refine fun s => ⟨fun ⟨ha, hh, _, hc⟩ => step_host_partial ha hh hc, fun hp => ?_⟩
  cases ha : s.nextTurn.agent with
  | host => exact step_host_goes_on ha hp
  | mtimer => exact ⟨_, step_mtimer ha⟩
  | dbtimer => exact ⟨_, step_dbtimer ha⟩
  | env => exact ⟨_, step_env ha⟩
  | resetLine => exact ⟨_, step_reset ha⟩

/-- Settles O9: a read command only responds, and the word it answers does not depend on RESP. -/
theorem readsAreIdempotent : Obligations.ReadsAreIdempotent := by
  intro i s hw hi
  have again := exec_read hw hi (s.respond (readWord s i))
  rw [readWord_respond] at again
  exact ⟨readWord s i, exec_read hw hi s, again⟩

/-- Settles O3: the next turn is the script's head or the free turn, and taking it has the stated effect. -/
theorem scriptedTurnComesNext : Obligations.ScriptedTurnComesNext := by
  refine fun s => ⟨fun t rest h => ?_, fun t rest h ha => ?_, fun h => ?_⟩
  · rw [step, State.nextTurn_scripted h, State.takeTurn_scripted h]
  · rw [step_env ((congrArg Turn.agent (State.nextTurn_scripted h)).trans ha), State.takeTurn_scripted h]
  · rw [step, State.nextTurn_free h, State.takeTurn_free h]

end Sys2Proof.Proofs

namespace Sys2Proof

/-! ### The layout of a word -/

/-- Two concatenations of the same widths are equal when their parts are. -/
theorem append_eq_append_iff {v w : Nat} {hi hi' : BitVec v} {lo lo' : BitVec w} :
    hi ++ lo = hi' ++ lo' ↔ hi = hi' ∧ lo = lo' := by
  constructor
  · intro h
    have upper := congrArg (BitVec.extractLsb' w v) h
    have lower := congrArg (BitVec.extractLsb' 0 w) h
    rw [BitVec.extractLsb'_append_eq_left, BitVec.extractLsb'_append_eq_left] at upper
    rw [BitVec.extractLsb'_append_eq_right, BitVec.extractLsb'_append_eq_right] at lower
    exact ⟨upper, lower⟩
  · rintro ⟨rfl, rfl⟩
    rfl

/-- A field is its upper and its lower part. -/
theorem field_split (v w start : Nat) (cmd : Word) :
    field start (v + w) cmd = field (start + w) v cmd ++ field start w cmd :=
  (BitVec.extractLsb'_append_extractLsb'_eq_extractLsb' rfl).symm

theorem field_eq_append_iff (v w start : Nat) (cmd : Word) (hi : BitVec v) (lo : BitVec w) :
    field start (v + w) cmd = hi ++ lo ↔ field (start + w) v cmd = hi ∧ field start w cmd = lo := by
  rw [field_split, append_eq_append_iff]

/-- A field of one bit is that bit. -/
theorem field_bit (n : Nat) (cmd : Word) : field n 1 cmd = BitVec.ofBool (cmd.getLsbD n) := by
  ext i hi
  obtain rfl : i = 0 := by omega
  simp

/-! ### Which words a format decodes -/

/-- A test of the decoder: what passes it goes on. -/
theorem guard_ok_iff {c : Prop} [Decidable c] {e : Reject} {r : Except Reject Instr} {i : Instr} :
    (if c then r else .error e) = .ok i ↔ c ∧ r = .ok i := by
  split <;> simp [*]

theorem formatZ_ok_iff {i : Instr} {cmd : Word} : formatZ i cmd = .ok i ↔ field 0 24 cmd = 0#24 := by
  simp [formatZ]

theorem formatFU_ok_iff {mod : BitVec 4} {x : Half} {cmd : Word} :
    formatFU cmd = .ok (.fdeUpd mod x) ↔ field 0 24 cmd = 0#4 ++ mod ++ x := by
  rw [field_eq_append_iff 8 16 0, field_eq_append_iff 4 4, formatFU, guard_ok_iff]
  simp [and_assoc]

theorem formatFR_ok_iff {mod sel : BitVec 4} {cmd : Word} : formatFR cmd = .ok (.fdeRd mod sel) ↔
    fdeSelLegal sel = true ∧ field 0 24 cmd = 0#4 ++ mod ++ 0#12 ++ sel := by
  rw [field_eq_append_iff 20 4 0, field_eq_append_iff 8 12, field_eq_append_iff 4 4, formatFR, guard_ok_iff,
    guard_ok_iff]
  constructor
  · rintro ⟨⟨h20, h4⟩, hl, h⟩
    cases h
    exact ⟨hl, ⟨⟨h20, rfl⟩, h4⟩, rfl⟩
  · rintro ⟨hl, ⟨⟨h20, rfl⟩, h4⟩, rfl⟩
    exact ⟨⟨h20, h4⟩, hl, rfl⟩

theorem formatMM_ok_iff {mode : BitVec 4} {d : Bool} {thresh : Half} {cmd : Word} :
    formatMM cmd = .ok (.motMove mode d thresh) ↔
      modeLegal mode = true ∧ field 0 24 cmd = mode ++ 0#3 ++ BitVec.ofBool d ++ thresh := by
  rw [field_eq_append_iff 8 16 0, field_eq_append_iff 7 1, field_eq_append_iff 4 3, field_bit,
    BitVec.ofBool_eq_iff_eq, formatMM, guard_ok_iff, guard_ok_iff]
  constructor
  · rintro ⟨h17, hl, h⟩
    cases h
    exact ⟨hl, ⟨⟨rfl, h17⟩, rfl⟩, rfl⟩
  · rintro ⟨hl, ⟨⟨rfl, h17⟩, rfl⟩, rfl⟩
    exact ⟨h17, hl, rfl⟩

/-- `i` is the constructor of an S4 command, so it is injective. -/
theorem formatS4_ok_iff {legal : BitVec 4 → Bool} {i : BitVec 4 → Instr} (hi : Function.Injective i) {v : BitVec 4}
    {cmd : Word} : formatS4 legal i cmd = .ok (i v) ↔ legal v = true ∧ field 0 24 cmd = 0#20 ++ v := by
  rw [field_eq_append_iff 20 4 0, formatS4, guard_ok_iff, guard_ok_iff]
  constructor
  · rintro ⟨h4, hl, h⟩
    cases hi (Except.ok.inj h)
    exact ⟨hl, h4, rfl⟩
  · rintro ⟨hl, h4, rfl⟩
    exact ⟨h4, hl, rfl⟩

theorem formatK2_ok_iff {kind : BitVec 2} {cmd : Word} :
    formatK2 cmd = .ok (.prbsGen kind) ↔ field 0 24 cmd = 0#22 ++ kind := by
  rw [field_eq_append_iff 22 2 0, formatK2, guard_ok_iff]
  simp

theorem formatSD_ok_iff {seed : BitVec 15} {cmd : Word} :
    formatSD cmd = .ok (.prbsSeed seed) ↔ field 0 24 cmd = 0#9 ++ seed := by
  rw [field_eq_append_iff 9 15 0, formatSD, guard_ok_iff]
  simp

/-- A word with the opcode of a command decodes to it exactly when the command is legal and the body is its body. -/
theorem decodeBody_ok_iff {i : Instr} {cmd : Word} :
    decodeBody i.opcode cmd = .ok i ↔ WellFormed i ∧ field 0 24 cmd = i.body := by
  cases i with
  | nop | status | clrerr | motStop | dbAdv | dbClr | prbsRd =>
    exact formatZ_ok_iff.trans (and_iff_right rfl).symm
  | fdeUpd mod x => exact formatFU_ok_iff.trans (and_iff_right rfl).symm
  | fdeRd mod sel =>
    rw [WellFormed, ← Machine.fdeSelLegal_eq_wellFormed]
    exact formatFR_ok_iff
  | motMove mode d thresh =>
    rw [WellFormed, ← Machine.modeLegal_eq_wellFormed]
    exact formatMM_ok_iff
  | motRd sel =>
    rw [WellFormed, ← Machine.motSelLegal_eq_wellFormed]
    exact formatS4_ok_iff fun _ _ => Instr.motRd.inj
  | dbStat sel =>
    rw [WellFormed, ← Machine.dbSelLegal_eq_wellFormed]
    exact formatS4_ok_iff fun _ _ => Instr.dbStat.inj
  | dbBlk p => exact formatS4_ok_iff fun _ _ => Instr.dbBlk.inj
  | dbStart p => exact formatS4_ok_iff fun _ _ => Instr.dbStart.inj
  | prbsGen kind => exact formatK2_ok_iff.trans (and_iff_right rfl).symm
  | prbsSeed seed => exact formatSD_ok_iff.trans (and_iff_right rfl).symm

/-- `decode` inverts `encode` on the well-formed commands, and accepts no other word. -/
theorem decode_ok_iff {i : Instr} {cmd : Word} : decode cmd = .ok i ↔ WellFormed i ∧ encode i = cmd := by
  constructor
  · intro h
    obtain ⟨hop, hb⟩ := decode_ok h
    obtain ⟨hw, hbody⟩ := decodeBody_ok_iff.mp hb
    refine ⟨hw, ?_⟩
    rw [encode, ← hop, ← hbody]
    exact word_split cmd
  · rintro ⟨hw, rfl⟩
    rw [decode_encode_body]
    exact decodeBody_ok_iff.mpr ⟨hw, body_word _ _⟩

end Sys2Proof

namespace Sys2Proof.Proofs

open Sys2Proof.Machine Sys2Proof.Claims

/-- Settles O51: one direction of `decode_ok_iff`, which goes through each format's layout. -/
theorem decodeOfEncodeIsTheCommand : Obligations.DecodeOfEncodeIsTheCommand :=
  fun _ hw => decode_ok_iff.mpr ⟨hw, rfl⟩

/-- Settles O52: the other direction of `decode_ok_iff`. -/
theorem encodeOfDecodeIsTheWord : Obligations.EncodeOfDecodeIsTheWord := fun _ _ h => decode_ok_iff.mp h

/-- Settles O56: each word is the encoding of its well-formed command. -/
theorem exampleWordsDecode : Obligations.ExampleWordsDecode := by
  refine ⟨?_, ?_, ?_, ?_, ?_, ?_, ?_⟩ <;> exact decode_ok_iff.mpr ⟨rfl, rfl⟩

end Sys2Proof.Proofs

namespace Sys2Proof

/-! ### The opcode table by opcode -/

/-- A masked field is 0 when its upper and its lower part are, under the mask's parts. -/
theorem field_masked_iff (v w start : Nat) (cmd : Word) (hi : BitVec v) (lo : BitVec w) :
    field start (v + w) cmd &&& (hi ++ lo) = 0#(v + w) ↔
      field (start + w) v cmd &&& hi = 0#v ∧ field start w cmd &&& lo = 0#w := by
  rw [field_split, BitVec.and_append, ← BitVec.zero_append_zero, append_eq_append_iff]

/-- Under a mask of its upper part, a field is 0 when that part is. -/
theorem field_upper_masked_iff (v w start : Nat) (cmd : Word) :
    field start (v + w) cmd &&& (BitVec.allOnes v ++ 0#w) = 0#(v + w) ↔ field (start + w) v cmd = 0#v := by
  rw [field_masked_iff, BitVec.and_allOnes, BitVec.and_zero]
  exact and_iff_left rfl

/-- The reserved bits of an opcode's format, over the body (R103). -/
def Opcode.reserved : Opcode → BitVec 24
  | .nop | .status | .clrerr | .motStop | .dbAdv | .dbClr | .prbsRd => BitVec.allOnes 24
  | .fdeUpd => BitVec.allOnes 4 ++ 0#20
  | .fdeRd => BitVec.allOnes 4 ++ 0#4 ++ BitVec.allOnes 12 ++ 0#4
  | .motMove => 0#4 ++ BitVec.allOnes 3 ++ 0#17
  | .motRd | .dbBlk | .dbStart | .dbStat => BitVec.allOnes 20 ++ 0#4
  | .prbsGen => BitVec.allOnes 22 ++ 0#2
  | .prbsSeed => BitVec.allOnes 9 ++ 0#15

/-- The table's row of an opcode: the OP value, and the reserved bits clear. -/
def Opcode.row (o : Opcode) : OpcodeRow := ⟨o, BitVec.allOnes 8 ++ o.reserved, o.code ++ 0#24⟩

theorem opcodeTable_eq_rows : opcodeTable = Opcode.all.map Opcode.row := by decide

theorem Opcode.mem_all (o : Opcode) : o ∈ Opcode.all := by
  cases o <;> decide

theorem mem_opcodeTable {r : OpcodeRow} : r ∈ opcodeTable ↔ ∃ o : Opcode, o.row = r := by
  simp [opcodeTable_eq_rows, Opcode.mem_all]

theorem Opcode.code_injective : Function.Injective Opcode.code := fun o o' h =>
  Option.some.inj ((opcodeOf_code o).symm.trans ((congrArg opcodeOf h).trans (opcodeOf_code o')))

theorem Opcode.row_matches_iff (o : Opcode) (cmd : Word) : cmd &&& o.row.mask = o.row.pattern ↔
    opField cmd = o.code ∧ field 0 24 cmd &&& o.reserved = 0#24 := by
  conv_lhs => rw [← word_split cmd]
  rw [Opcode.row, BitVec.and_append, append_eq_append_iff, BitVec.and_allOnes]

/-! ### Which words `decode` accepts -/

/-- The selector or the mode of a word, if its opcode has one, is legal (R110 to R113). -/
def Opcode.FieldLegal (o : Opcode) (cmd : Word) : Prop :=
  (o = .fdeRd → cmd.toNat % 16 ≤ 6) ∧
  (o = .motMove → 1 ≤ cmd.toNat / 2 ^ 20 % 16 ∧ cmd.toNat / 2 ^ 20 % 16 ≤ 8) ∧
  (o = .motRd → cmd.toNat % 16 ≤ 4) ∧
  (o = .dbStat → cmd.toNat % 16 ≤ 2)

/-- The mask's conditions on the body are the tests of the opcode's format, field by field. -/
theorem decodeBody_accepts_iff (o : Opcode) (cmd : Word) : (∃ i, decodeBody o cmd = .ok i) ↔
    field 0 24 cmd &&& o.reserved = 0#24 ∧ o.FieldLegal cmd := by
  cases o with
  | nop | status | clrerr | motStop | dbAdv | dbClr | prbsRd =>
    rw [Opcode.reserved, BitVec.and_allOnes]
    simp [decodeBody, formatZ, guard_ok_iff, Opcode.FieldLegal]
  | fdeUpd =>
    rw [Opcode.reserved, field_upper_masked_iff 4 20]
    simp [decodeBody, formatFU, guard_ok_iff, Opcode.FieldLegal]
  | fdeRd =>
    rw [Opcode.reserved, field_masked_iff 20 4, field_masked_iff 8 12, field_upper_masked_iff 4 4, BitVec.and_allOnes]
    simp [decodeBody, formatFR, guard_ok_iff, Opcode.FieldLegal, fdeSelLegal, Nat.lt_succ_iff]
  | motMove =>
    rw [Opcode.reserved, field_masked_iff 7 17, field_masked_iff 4 3, BitVec.and_allOnes]
    simp [decodeBody, formatMM, guard_ok_iff, Opcode.FieldLegal, Machine.modeLegal_eq_wellFormed _ false 0,
      Instr.wellFormed, Nat.shiftRight_eq_div_pow]
  | motRd =>
    rw [Opcode.reserved, field_upper_masked_iff 20 4]
    simp [decodeBody, formatS4, guard_ok_iff, Opcode.FieldLegal, motSelLegal, Nat.lt_succ_iff]
  | dbStat =>
    rw [Opcode.reserved, field_upper_masked_iff 20 4]
    simp [decodeBody, formatS4, guard_ok_iff, Opcode.FieldLegal, dbSelLegal, Nat.lt_succ_iff]
  | dbBlk | dbStart =>
    rw [Opcode.reserved, field_upper_masked_iff 20 4]
    simp [decodeBody, formatS4, guard_ok_iff, Opcode.FieldLegal, anyLegal]
  | prbsGen =>
    rw [Opcode.reserved, field_upper_masked_iff 22 2]
    simp [decodeBody, formatK2, guard_ok_iff, Opcode.FieldLegal]
  | prbsSeed =>
    rw [Opcode.reserved, field_upper_masked_iff 9 15]
    simp [decodeBody, formatSD, guard_ok_iff, Opcode.FieldLegal]

theorem decode_of_opField {o : Opcode} {cmd : Word} (h : opField cmd = o.code) : decode cmd = decodeBody o cmd := by
  simp only [decode, h, opcodeOf_code]

/-- A word decodes exactly when a row matches it and its selector or mode is legal. -/
theorem decode_accepts_iff (cmd : Word) : (∃ i, decode cmd = .ok i) ↔
    ∃ o : Opcode, cmd &&& o.row.mask = o.row.pattern ∧ o.FieldLegal cmd := by
  simp only [Opcode.row_matches_iff, and_assoc, ← decodeBody_accepts_iff]
  constructor
  · rintro ⟨i, h⟩
    obtain ⟨hop, hb⟩ := decode_ok h
    exact ⟨i.opcode, hop, i, hb⟩
  · rintro ⟨o, hop, hb⟩
    rwa [decode_of_opField hop]

/-! ### What `decode` rejects, by name -/

theorem decode_reserved_opcode {op : BitVec 8} (h : ∀ o : Opcode, o.code ≠ op) (body : BitVec 24) :
    decode (op ++ body) = .error .reservedOpcode := by
  have hnone : opcodeOf op = none := by simp [opcodeOf, h]
  simp only [decode, opField_word, hnone]

section

variable {cmd : Word}

theorem decode_fdeRd_reserved (hop : opField cmd = 0x11#8) (h : fdeSelLegal (field 0 4 cmd) = false) : decode cmd =
    .error (if field 20 4 cmd = 0#4 ∧ field 4 12 cmd = 0#12 then .reservedSelector else .reservedBits) := by
  simp only [decode_of_opField (o := .fdeRd) hop, decodeBody, formatFR, h]
  split <;> rfl

theorem decode_motMove_reserved (hop : opField cmd = 0x20#8) (h : modeLegal (field 20 4 cmd) = false) :
    decode cmd = .error (if field 17 3 cmd = 0#3 then .reservedMode else .reservedBits) := by
  simp only [decode_of_opField (o := .motMove) hop, decodeBody, formatMM, h]
  split <;> rfl

theorem formatS4_reserved {legal : BitVec 4 → Bool} (i : BitVec 4 → Instr) (h : legal (field 0 4 cmd) = false) :
    formatS4 legal i cmd = .error (if field 4 20 cmd = 0#20 then .reservedSelector else .reservedBits) := by
  simp only [formatS4, h]
  split <;> rfl

end

/-! ### The fields of a word that is laid out in its parts -/

theorem selectorWord_fields (op : BitVec 8) (bits : BitVec 20) (sel : BitVec 4) :
    opField (op ++ bits ++ sel) = op ∧ field 4 20 (op ++ bits ++ sel) = bits ∧
      field 0 4 (op ++ bits ++ sel) = sel := by
  have whole := field_whole (op ++ bits ++ sel)
  rw [field_eq_append_iff 28 4, field_eq_append_iff 8 20, and_assoc] at whole
  exact whole

theorem fdeRdWord_fields (op : BitVec 8) (hi mod : BitVec 4) (lo : BitVec 12) (sel : BitVec 4) :
    opField (op ++ hi ++ mod ++ lo ++ sel) = op ∧ field 20 4 (op ++ hi ++ mod ++ lo ++ sel) = hi ∧
      field 4 12 (op ++ hi ++ mod ++ lo ++ sel) = lo ∧ field 0 4 (op ++ hi ++ mod ++ lo ++ sel) = sel := by
  have whole := field_whole (op ++ hi ++ mod ++ lo ++ sel)
  rw [field_eq_append_iff 28 4, field_eq_append_iff 16 12, field_eq_append_iff 12 4, field_eq_append_iff 8 4] at whole
  obtain ⟨⟨⟨⟨hop, hhi⟩, -⟩, hlo⟩, hsel⟩ := whole
  exact ⟨hop, hhi, hlo, hsel⟩

theorem modeWord_fields (op : BitVec 8) (mode : BitVec 4) (bits : BitVec 20) :
    opField (op ++ mode ++ bits) = op ∧ field 20 4 (op ++ mode ++ bits) = mode := by
  have whole := field_whole (op ++ mode ++ bits)
  rw [field_eq_append_iff 12 20, field_eq_append_iff 8 4] at whole
  exact whole.1

theorem motMoveWord_fields (op : BitVec 8) (mode : BitVec 4) (bits : BitVec 3) (d : BitVec 1) (thresh : BitVec 16) :
    opField (op ++ mode ++ bits ++ d ++ thresh) = op ∧ field 20 4 (op ++ mode ++ bits ++ d ++ thresh) = mode ∧
      field 17 3 (op ++ mode ++ bits ++ d ++ thresh) = bits := by
  have whole := field_whole (op ++ mode ++ bits ++ d ++ thresh)
  rw [field_eq_append_iff 16 16, field_eq_append_iff 15 1, field_eq_append_iff 12 3, field_eq_append_iff 8 4] at whole
  obtain ⟨⟨⟨⟨hop, hmode⟩, hbits⟩, -⟩, -⟩ := whole
  exact ⟨hop, hmode, hbits⟩

/-- A reserved selector of an S4 command. -/
theorem decode_selectorWord_reserved {o : Opcode} {legal : BitVec 4 → Bool} {i : BitVec 4 → Instr}
    (ho : decodeBody o = formatS4 legal i) (bits : BitVec 20) {sel : BitVec 4} (h : legal sel = false) :
    decode (o.code ++ bits ++ sel) = .error (if bits = 0#20 then .reservedSelector else .reservedBits) := by
  obtain ⟨hop, hbits, hsel⟩ := selectorWord_fields o.code bits sel
  rw [decode_of_opField hop, ho, formatS4_reserved i (by rw [hsel, h]), hbits]

end Sys2Proof

namespace Sys2Proof.Proofs

open Sys2Proof.Machine Sys2Proof.Claims

/-- Settles O53: the rows are those of the opcodes, each matches by its own OP value, and `decode_accepts_iff`. -/
theorem decodeAcceptsExactlyTheTablesWords : Obligations.DecodeAcceptsExactlyTheTablesWords := by
  intro cmd
  constructor
  · intro r₁ h₁ r₂ h₂ hm₁ hm₂
    obtain ⟨o₁, rfl⟩ := mem_opcodeTable.mp h₁
    obtain ⟨o₂, rfl⟩ := mem_opcodeTable.mp h₂
    obtain ⟨hop₁, -⟩ := (o₁.row_matches_iff cmd).mp hm₁
    obtain ⟨hop₂, -⟩ := (o₂.row_matches_iff cmd).mp hm₂
    rw [Opcode.code_injective (hop₁.symm.trans hop₂)]
  · rw [decode_accepts_iff]
    constructor
    · rintro ⟨o, hm, hl⟩
      exact ⟨o.row, mem_opcodeTable.mpr ⟨o, rfl⟩, hm, hl⟩
    · rintro ⟨r, hr, hm, hl⟩
      obtain ⟨o, rfl⟩ := mem_opcodeTable.mp hr
      exact ⟨o, hm, hl⟩

/-- Settles O54: no opcode's OP value is in a reserved range. -/
theorem reservedOpcodesAreRejected : Obligations.ReservedOpcodesAreRejected := by
  intro op body h
  refine decode_reserved_opcode (fun o e => ?_) body
  subst e
  cases o <;> simp [Opcode.code] at h

/-- Settles O55: a reserved selector or mode leaves each format only its two rejections, whatever the other bits. -/
theorem reservedFieldValuesAreRejected : Obligations.ReservedFieldValuesAreRejected := by
  intro f m bits mod d th
  refine ⟨fun h => ?_, fun h => ?_, fun h => ?_, fun h => ?_⟩
  · have hf : fdeSelLegal f = false := decide_eq_false (by omega)
    obtain ⟨hop, -, hsel⟩ := selectorWord_fields 0x11#8 bits f
    obtain ⟨hop', hhi, hlo, hsel'⟩ := fdeRdWord_fields 0x11#8 0#4 mod 0#12 f
    refine ⟨⟨_, decode_fdeRd_reserved hop (by rw [hsel, hf])⟩, ?_⟩
    rw [decode_fdeRd_reserved hop' (by rw [hsel', hf]), if_pos ⟨hhi, hlo⟩]
  · have hf : motSelLegal f = false := decide_eq_false (by omega)
    exact ⟨⟨_, decode_selectorWord_reserved (o := .motRd) rfl bits hf⟩,
      decode_selectorWord_reserved (o := .motRd) rfl 0#20 hf⟩
  · have hf : dbSelLegal f = false := decide_eq_false (by omega)
    exact ⟨⟨_, decode_selectorWord_reserved (o := .dbStat) rfl bits hf⟩,
      decode_selectorWord_reserved (o := .dbStat) rfl 0#20 hf⟩
  · have hm : modeLegal m = false := by
      rcases h with rfl | h
      · rfl
      · simp [modeLegal, h]
    obtain ⟨hop, hmode⟩ := modeWord_fields 0x20#8 m bits
    obtain ⟨hop', hmode', hbits⟩ := motMoveWord_fields 0x20#8 m 0#3 d th
    refine ⟨⟨_, decode_motMove_reserved hop (by rw [hmode, hm])⟩, ?_⟩
    rw [decode_motMove_reserved hop' (by rw [hmode', hm]), if_pos hbits]

end Sys2Proof.Proofs

namespace Sys2Proof.Machine

/-! ### The assembler (R117, R118) -/

theorem operand_ok {symbols : List (String × Nat)} {lo hi v : Nat} {cs : List Char}
    (h : operand symbols lo hi cs = .ok v) : lo ≤ v ∧ v ≤ hi := by
  unfold operand at h
  split at h
  · cases h
  · split at h <;> cases h
    exact ‹lo ≤ v ∧ v ≤ hi›

/-- Every command that a mnemonic's operands give is legal. -/
def EmitsLegal (parse : List (List Char) → Except AsmError Instr) : Prop :=
  ∀ args i, parse args = .ok i → WellFormed i

theorem asmNone_emitsLegal {i : Instr} (hi : WellFormed i) : EmitsLegal (asmNone i) := by
  intro args j h
  unfold asmNone at h
  split at h <;> cases h
  exact hi

theorem asmOne_emitsLegal {symbols : List (String × Nat)} {lo hi : Nat} {i : Nat → Instr}
    (hl : ∀ v, lo ≤ v → v ≤ hi → WellFormed (i v)) : EmitsLegal (asmOne symbols lo hi i) := by
  intro args j h
  unfold asmOne at h
  split at h
  · split at h <;> cases h
    next v hv =>
      obtain ⟨h1, h2⟩ := operand_ok hv
      exact hl v h1 h2
  · cases h

theorem asmTwo_emitsLegal {sym1 sym2 : List (String × Nat)} {lo1 hi1 hi2 : Nat} {i : Nat → Nat → Instr}
    (hl : ∀ v u, lo1 ≤ v → v ≤ hi1 → u ≤ hi2 → WellFormed (i v u)) :
    EmitsLegal (asmTwo sym1 lo1 hi1 sym2 hi2 i) := by
  intro args j h
  unfold asmTwo at h
  split at h
  · split at h <;> cases h
    next v u hv hu =>
      obtain ⟨h1, h2⟩ := operand_ok hv
      exact hl v u h1 h2 (operand_ok hu).2
  · cases h

/-- A mode operand is a legal mode. -/
theorem motMove_wellFormed {m : Nat} (h1 : 1 ≤ m) (h8 : m ≤ 8) (d : Bool) (thresh : Half) :
    WellFormed (.motMove (.ofNat 4 m) d thresh) := by
  have : m % 16 = m := Nat.mod_eq_of_lt (by omega)
  simp [WellFormed, Instr.wellFormed, this, h1, h8]

/-- A selector operand is at most the highest selector. -/
theorem ofNat_toNat_le {v hi : Nat} (h : v ≤ hi) : (BitVec.ofNat 4 v).toNat ≤ hi := (Nat.mod_le v _).trans h

theorem mnemonics_emitLegal : ∀ p ∈ mnemonics, EmitsLegal p.2 := by
  have bare {i : Instr} (hi : WellFormed i) : EmitsLegal (asmNone i) := asmNone_emitsLegal hi
  have move (d : Bool) := asmTwo_emitsLegal (sym1 := modeSymbols) (sym2 := []) (hi2 := 65535)
    fun m t h1 h8 _ => motMove_wellFormed h1 h8 d (.ofNat 16 t)
  simp only [mnemonics, List.forall_mem_append, List.forall_mem_cons, List.not_mem_nil, false_implies,
    implies_true, and_true]
  refine ⟨⟨⟨bare rfl, bare rfl, bare rfl, ?fdeUpd, ?fdeRd, move false, move true, bare rfl, ?motRd⟩,
    ?dbBlk, ?dbStart, bare rfl, bare rfl, ?dbStat, ?prbsGen, ?prbsSeed, bare rfl⟩,
    bare rfl, bare rfl, bare rfl, bare rfl, bare rfl, bare rfl, ?motFree⟩
  case fdeUpd => exact asmTwo_emitsLegal fun _ _ _ _ _ => rfl
  case fdeRd => exact asmTwo_emitsLegal fun _ _ _ _ he => decide_eq_true (ofNat_toNat_le he)
  case motRd => exact asmOne_emitsLegal fun _ _ he => decide_eq_true (ofNat_toNat_le he)
  case dbStat => exact asmOne_emitsLegal fun _ _ he => decide_eq_true (ofNat_toNat_le he)
  case motFree => exact asmOne_emitsLegal fun _ h1 h8 => motMove_wellFormed h1 h8 false 0
  case dbBlk | dbStart | prbsGen | prbsSeed => exact asmOne_emitsLegal fun _ _ _ => rfl

theorem assembleLine_wellFormed {line : List Char} {i : Instr} (h : assembleLine line = .ok (some i)) :
    WellFormed i := by
  simp only [assembleLine] at h
  split at h
  · cases h
  · split at h
    · cases h
    · next p hp =>
      split at h <;> cases h
      next hi => exact mnemonics_emitLegal p (List.mem_of_find?_eq_some hp) _ _ hi

theorem assembleLines_encodes {lines : List (List Char)} {ws : List Word} (h : assembleLines lines = .ok ws) :
    ∀ w ∈ ws, ∃ i, WellFormed i ∧ encode i = w := by
  induction lines generalizing ws with
  | nil =>
    cases h
    simp
  | cons l ls ih =>
    simp only [assembleLines] at h
    split at h
    · next i ws' hl hls =>
      cases h
      rw [List.forall_mem_cons]
      exact ⟨⟨i, assembleLine_wellFormed hl, rfl⟩, ih hls⟩
    · next ws' hl hls =>
      cases h
      exact ih hls
    · cases h
    · cases h

end Sys2Proof.Machine

namespace Sys2Proof.Proofs

open Sys2Proof.Machine Sys2Proof.Claims

/-- Settles O57: every word that the lines give is the encoding of a legal command, which `decode` reads back. -/
theorem assemblerEmitsOnlyLegalWords : Obligations.AssemblerEmitsOnlyLegalWords := by
  intro text ws h w hw
  obtain ⟨i, hi⟩ := assembleLines_encodes h w hw
  exact ⟨i, decode_ok_iff.mpr hi⟩

/-- Settles O17: an unrecognized module id selects no record, so both commands only respond. -/
theorem unrecognizedModuleIsANoOp : Obligations.UnrecognizedModuleIsANoOp := by
  intro s m sel x hm
  refine ⟨rfl, execFdeUpd_none hm x s, fun hsel => ?_⟩
  have hw : WellFormed (.fdeRd m sel) := decide_eq_true hsel
  refine ⟨hw, ?_⟩
  rw [exec_read hw (.inr (.inl ⟨m, sel, rfl⟩)), readWord, moduleIndex_none m hm]
  rfl

end Sys2Proof.Proofs

namespace Sys2Proof.Machine

/-! ### Issuing a word -/

theorem State.issue_ok {w : Word} {i : Instr} (h : decode w = .ok i) (s : State) : s.issue w = exec i s := by
  simp only [State.issue, h]

end Sys2Proof.Machine

namespace Sys2Proof.Proofs

open Sys2Proof.Machine Sys2Proof.Claims

/-- Settles O2: a word of the HOST's turn leaves the queue and is issued, and issuing it is exec of its command. -/
theorem stepRunsTheDecodedCommand : Obligations.StepRunsTheDecodedCommand := by
  intro s w rest i ha hh hc hd
  rw [step_host_word ha hh hc, State.issue_ok hd, State.dropWrite, State.takeTurn_cmds, hc]
  rfl

end Sys2Proof.Proofs

namespace Sys2Proof.Machine

/-! ### Bit 31 of the response words (R115, R116) -/

theorem zext_bit31 {w : Nat} (v : BitVec w) (h : w ≤ 31) : (zext v).getLsbD 31 = false := by
  simp [zext, BitVec.getLsbD_of_ge v 31 h]

theorem Mps.statusWord_bit31 (m : Mps) : m.statusWord.getLsbD 31 = false := by
  simp only [Mps.statusWord, BitVec.getLsbD_append]
  simp

theorem Dbu.statusWord_bit31 (d : Dbu) : d.statusWord.getLsbD 31 = false := by
  simp only [Dbu.statusWord, BitVec.getLsbD_append]
  simp

theorem FdeModule.read_bit31 (sel : BitVec 4) (f : FdeModule) : (f.read sel).getLsbD 31 = false := by
  unfold FdeModule.read
  split <;> exact zext_bit31 _ (by decide)

theorem Mps.read_bit31 (sel : BitVec 4) (m : Mps) : (m.read sel).getLsbD 31 = false := by
  unfold Mps.read
  split
  case h_3 => exact m.statusWord_bit31
  all_goals exact zext_bit31 _ (by decide)

theorem Dbu.read_bit31 (sel : BitVec 4) (d : Dbu) : (d.read sel).getLsbD 31 = false := by
  unfold Dbu.read
  split
  · exact d.statusWord_bit31
  all_goals exact zext_bit31 _ (by decide)

theorem prbsValue_bit31 (floor : TimeFloor) (kind : BitVec 2) (l : BitVec 15) :
    (prbsValue floor kind l).getLsbD 31 = false := by
  unfold prbsValue
  split <;> exact zext_bit31 _ (by decide)

theorem readWord_bit31 (s : State) (i : Instr) : (readWord s i).getLsbD 31 = false := by
  cases i with
  | status => exact zext_bit31 _ (by decide)
  | fdeRd mod sel =>
    rw [readWord]
    cases moduleIndex mod with
    | none => exact BitVec.getLsbD_zero
    | some k => exact s.fde[k].read_bit31 sel
  | motRd sel => exact s.mps.read_bit31 sel
  | dbStat sel => exact s.dbu.read_bit31 sel
  | prbsRd => exact zext_bit31 _ (by decide)
  | _ => exact BitVec.getLsbD_zero

/-! ### The answer of each legal command -/

theorem execFdeUpd_some {mod : BitVec 4} {k : Fin 8} (hk : moduleIndex mod = some k) (x : Half) (s : State) :
    execFdeUpd mod x s = .next ((s.setModule k (s.fde[k].update (isRotation k) s.mps.steps x)).respond
      (zext (s.fde[k].update (isRotation k) s.mps.steps x).result)) := by
  simp only [execFdeUpd, hk]

theorem execMotMove_legal {code : BitVec 4} (h : modeLegal code = true) (d : Bool) (thresh : Half) (s : State) :
    ∃ mode, execMotMove code d thresh s =
      .next ((s.setMps (s.mps.move s.params.softstart mode d thresh)).respond 0#32) := by
  obtain ⟨mode, hm, -⟩ := Mode.ofCode_legal h
  exact ⟨mode, by simp only [execMotMove, h, hm, if_true]⟩

@[simp] theorem State.setDbu_setDbu (d d' : Dbu) (s : State) : (s.setDbu d).setDbu d' = s.setDbu d' := rfl

/-- DB_BLK is rejected, holds the port on a high pin, or answers a low pin at once. -/
theorem execDbBlk_cases (p : BitVec 4) (s : State) :
    (s.dbu.own ≠ .free ∧ execDbBlk p s = .next (s.respond 0#32)) ∨
    (s.dbu.own = .free ∧ s.sample p = true ∧
      execDbBlk p s = .next ((s.setDbu (s.dbu.acquireBlocking p)).setHeld true)) ∨
    (s.dbu.own = .free ∧ s.sample p = false ∧
      execDbBlk p s = .next ((s.setDbu (s.dbu.acquireBlocking p).release).respond 0#32)) := by
  by_cases hf : s.dbu.own = .free
  · cases hp : s.sample p
    · exact .inr (.inr ⟨hf, rfl, by simp [execDbBlk, hf, hp]⟩)
    · exact .inr (.inl ⟨hf, rfl, by simp [execDbBlk, hf, hp]⟩)
  · exact .inl ⟨hf, by simp [execDbBlk, hf]⟩

/-- DB_START starts a session on a free timer and is rejected on an owned one. -/
theorem execDbStart_cases (p : BitVec 4) (s : State) :
    (s.dbu.own ≠ .free ∧ execDbStart p s = .next (s.respond 0#32)) ∨
    (s.dbu.own = .free ∧
      execDbStart p s = .next ((s.setDbu (s.dbu.startSession s.params.nbInc p)).respond 1#32)) := by
  by_cases hf : s.dbu.own = .free
  · exact .inr ⟨hf, by simp [execDbStart, hf]⟩
  · exact .inl ⟨hf, by simp [execDbStart, hf]⟩

/-- A command answers a word with bit 31 clear. -/
def AnswersClear (i : Instr) (s : State) : Prop :=
  ∃ (u : State) (v : Word), exec i s = .next (u.respond v) ∧ v.getLsbD 31 = false

theorem execFdeUpd_clear (mod : BitVec 4) (x : Half) (s : State) : AnswersClear (.fdeUpd mod x) s := by
  cases hk : moduleIndex mod with
  | none => exact ⟨s, 0#32, by simp only [exec, execFdeUpd, hk], BitVec.getLsbD_zero⟩
  | some k => exact ⟨_, _, execFdeUpd_some hk x s, zext_bit31 _ (by decide)⟩

/-- A legal command answers a clear word, but for a DB_BLK that holds the port. -/
theorem exec_answersClear_or_holds {i : Instr} (hw : WellFormed i) (s : State) : AnswersClear i s ∨
    ∃ p, i = .dbBlk p ∧ s.dbu.own = .free ∧ s.sample p = true ∧
      exec i s = .next ((s.setDbu (s.dbu.acquireBlocking p)).setHeld true) := by
  cases i with
  | dbBlk p =>
    rcases execDbBlk_cases p s with ⟨-, e⟩ | ⟨hf, hp, e⟩ | ⟨-, -, e⟩
    · exact .inl ⟨_, _, e, BitVec.getLsbD_zero⟩
    · exact .inr ⟨p, rfl, hf, hp, e⟩
    · exact .inl ⟨_, _, e, BitVec.getLsbD_zero⟩
  | motMove code d thresh =>
    obtain ⟨mode, e⟩ := execMotMove_legal ((modeLegal_eq_wellFormed code d thresh).trans hw) d thresh s
    exact .inl ⟨_, _, e, BitVec.getLsbD_zero⟩
  | fdeUpd mod x => exact .inl (execFdeUpd_clear mod x s)
  | dbStart p =>
    rcases execDbStart_cases p s with ⟨-, e⟩ | ⟨-, e⟩
    · exact .inl ⟨_, _, e, BitVec.getLsbD_zero⟩
    · exact .inl ⟨_, _, e, by decide⟩
  | nop | clrerr | motStop => exact .inl ⟨_, _, rfl, BitVec.getLsbD_zero⟩
  | prbsSeed seed => exact .inl ⟨_, _, rfl, BitVec.getLsbD_zero⟩
  | dbAdv | dbClr => exact .inl ⟨_, _, rfl, zext_bit31 _ (by decide)⟩
  | prbsGen kind => exact .inl ⟨_, _, rfl, prbsValue_bit31 _ _ _⟩
  | status | fdeRd | motRd | dbStat | prbsRd => exact .inl ⟨s, _, exec_read hw (by simp) s, readWord_bit31 s _⟩

end Sys2Proof.Machine

namespace Sys2Proof.Proofs

open Sys2Proof.Machine Sys2Proof.Claims

/-- Settles O8: each legal command responds with a word of at most 31 bits, or is the DB_BLK that holds the port. -/
theorem legalResponsesHaveBit31Clear : Obligations.LegalResponsesHaveBit31Clear := by
  intro i s hw
  rcases exec_answersClear_or_holds hw s with ⟨u, v, e, hv⟩ | ⟨p, hi, hf, hp, e⟩
  · exact ⟨_, e, .inl hv⟩
  · exact ⟨_, e, .inr ⟨p, hi, hf, hp, rfl, rfl⟩⟩

end Sys2Proof.Proofs

namespace Sys2Proof.Machine

open Sys2Proof.Claims

/-! ### One FDE_UPD on a module (R151) -/

/-- The state after FDE_UPD on the module at index `k`. -/
def State.updateModule (k : Fin 8) (x : Half) (s : State) : State :=
  (s.setModule k (s.fde[k].update (isRotation k) s.mps.steps x)).respond
    (zext (s.fde[k].update (isRotation k) s.mps.steps x).result)

theorem exec_fdeUpd (k : Fin 8) (x : Half) (s : State) :
    exec (.fdeUpd (idOf k) x) s = .next (s.updateModule k x) := execFdeUpd_id k x s

theorem State.updateModule_same (k : Fin 8) (x : Half) (s : State) :
    (s.updateModule k x).fde[k] = s.fde[k].update (isRotation k) s.mps.steps x := State.setModule_same k _ s

theorem State.updateModule_other {j k : Fin 8} (h : j ≠ k) (x : Half) (s : State) :
    (s.updateModule k x).fde[j] = s.fde[j] := State.setModule_other _ s h

@[simp] theorem State.updateModule_mps (k : Fin 8) (x : Half) (s : State) : (s.updateModule k x).mps = s.mps := rfl

@[simp] theorem State.updateModule_resp (k : Fin 8) (x : Half) (s : State) :
    (s.updateModule k x).resp = zext (s.fde[k].update (isRotation k) s.mps.steps x).result := rfl

/-! ### The statements' tests are the model's -/

theorem olderSum_eq_older (g : Vector Sign 20) : olderSum g = older g := gradSum_eq g 10 (by decide)

theorem newerSum_eq_newer (g : Vector Sign 20) : newerSum g = newer g := by
  rw [newerSum, gradSum_eq g 0 (by decide)]
  simp only [newer, Nat.zero_add]

theorem timesOut_iff (k : Fin 8) (s : State) (f : FdeModule) :
    TimesOut k s f ↔ timeoutDue (isRotation k) s.mps.steps f.idle = true :=
  (timeoutDue_iff k s.mps.steps f.idle).symm

namespace FdeModule

variable (rot : Bool) (steps x : Half) (f : FdeModule)

/-- The push is the only write of the signs, so the test on the pushed record is the test on the updated one (R146). -/
theorem confirms_update_iff : Confirms f (f.update rot steps x) ↔ (f.push x).confirmed = true := by
  have hg : (f.push x).grads = (f.update rot steps x).grads := (update_grads rot steps x f).symm
  rw [confirmed, Bool.and_eq_true, decide_eq_true_iff, reversal_iff, hg, push_idle, olderSum_eq_older,
    newerSum_eq_newer]
  rfl

/-! ### An update by its two tests -/

section
variable {rot steps x f}

/-- A confirmation logs the midpoint with the idle count before the update; IDLE is 0, so no timeout follows (R147). -/
theorem update_of_confirms (h : Confirms f (f.update rot steps x)) :
    (f.update rot steps x).idle = 0#8 ∧ (f.update rot steps x).log0 = f.log1 ∧
      (f.update rot steps x).log1 = ⟨(f.update rot steps x).samples[10], f.idle⟩ := by
  have hc := (confirms_update_iff rot steps x f).mp h
  have hi : (f.update rot steps x).idle = 0#8 := by rw [update_idle, if_pos hc]
  have ht : timeoutDue rot steps (f.update rot steps x).idle = false := by rw [hi]; rfl
  refine ⟨hi, ?_⟩
  rw [update_unexpired rot steps x f ht, hc, logIdle_true]
  simp

/-- Any other update counts IDLE up to 255 (R147). -/
theorem update_idle_of_not_confirms (h : ¬ Confirms f (f.update rot steps x)) :
    (f.update rot steps x).idle.toNat = min (f.idle.toNat + 1) 255 := by
  rw [update_idle, if_neg (mt (confirms_update_iff rot steps x f).mpr h)]
  exact satInc_toNat f.idle

/-- With no confirmation and no timeout the log stays (R147). -/
theorem update_log_of_not_confirms (h : ¬ Confirms f (f.update rot steps x))
    (ht : timeoutDue rot steps (f.update rot steps x).idle = false) :
    (f.update rot steps x).log0 = f.log0 ∧ (f.update rot steps x).log1 = f.log1 := by
  have hc := Bool.eq_false_iff.mpr (mt (confirms_update_iff rot steps x f).mpr h)
  rw [update_unexpired rot steps x f ht, hc, logIdle_false]
  simp

/-- The result of a collision module is computed from the log that the update leaves (R149). -/
theorem update_result_collision (hr : rot = false)
    (ht : timeoutDue rot steps (f.update rot steps x).idle = false) : (f.update rot steps x).result =
      collisionResult (f.update rot steps x).log0 (f.update rot steps x).log1 := by
  rw [update_unexpired rot steps x f ht, hr, assess_collision, assess_log0, assess_log1]

/-- The result of a rotation module is 1 on a confirmation and stays otherwise (R148). -/
theorem update_result_rotation (hr : rot = true)
    (ht : timeoutDue rot steps (f.update rot steps x).idle = false) :
    (f.update rot steps x).result = if (f.push x).confirmed then 1#16 else f.result := by
  rw [update_unexpired rot steps x f ht, hr, assess_rotation, logIdle_result, push_result]

end

/-- The timeout of a collision module does not read MPS.STEPS (R150). -/
theorem update_collision_steps (steps' : Half) : f.update false steps x = f.update false steps' x := rfl

end FdeModule

/-! ### The collision result (R149) -/

theorem collisionResult_toNat {l₀ l₁ : LogSlot} (h₀ : InWindow l₀) (h₁ : InWindow l₁) :
    (collisionResult l₀ l₁).toNat = ((l₀.level.toNat : Int) - (l₁.level.toNat : Int)).natAbs := by
  rw [collisionResult, (inWindow_iff l₀).mpr h₀, (inWindow_iff l₁).mpr h₁]
  exact levelDiff_toNat l₀.level l₁.level

theorem collisionResult_eq_zero {l₀ l₁ : LogSlot} (h : ¬ (InWindow l₀ ∧ InWindow l₁)) :
    collisionResult l₀ l₁ = 0#16 := by
  refine if_neg fun hw => h ?_
  rw [Bool.and_eq_true, inWindow_iff, inWindow_iff] at hw
  exact hw

/-! ### Streams of samples on one module -/

/-- A record after a stream of samples, with one and the same step count. -/
def FdeModule.updateAll (rot : Bool) (steps : Half) (xs : List Half) (f : FdeModule) : FdeModule :=
  xs.foldl (fun g x => g.update rot steps x) f

/-- FDE_UPDs on one module go on, and update its record alone: none of them writes MPS.STEPS. -/
theorem runAll_fdeUpd (k : Fin 8) (xs : List Half) (s : State) :
    ∃ t, runAll (xs.map fun x => .fdeUpd (idOf k) x) s = .next t ∧
      t.fde[k] = s.fde[k].updateAll (isRotation k) s.mps.steps xs := by
  induction xs generalizing s with
  | nil => exact ⟨s, rfl, rfl⟩
  | cons x xs ih =>
    obtain ⟨t, ht, hf⟩ := ih (s.updateModule k x)
    refine ⟨t, ?_, ?_⟩
    · simp only [List.map_cons, runAll, exec_fdeUpd, ht]
    · rw [hf, State.updateModule_same, State.updateModule_mps]
      rfl

namespace FdeModule

variable {rot : Bool} {steps : Half}

/-- As long as the refractory interval lasts, a stream only counts (R143, R147). -/
theorem updateAll_refractory (xs : List Half) (f : FdeModule) (h : f.idle.toNat + xs.length ≤ 12) :
    (f.updateAll rot steps xs).idle.toNat = f.idle.toNat + xs.length ∧
      (f.updateAll rot steps xs).log0 = f.log0 ∧ (f.updateAll rot steps xs).log1 = f.log1 := by
  induction xs generalizing f with
  | nil => exact ⟨rfl, rfl, rfl⟩
  | cons x xs ih =>
    rw [List.length_cons] at h ⊢
    obtain ⟨hi, h0, h1⟩ := update_refractory rot steps x f (by omega)
    obtain ⟨hi', h0', h1'⟩ := ih (f.update rot steps x) (by omega)
    exact ⟨hi'.trans (by omega), h0'.trans h0, h1'.trans h1⟩

/-- A stream none of whose updates leaves IDLE at 0 counts IDLE up to 255 (R147). -/
theorem updateAll_idle_of_ne_zero (xs : List Half) (f : FdeModule)
    (h : ∀ n, 1 ≤ n → n ≤ xs.length → (f.updateAll rot steps (xs.take n)).idle ≠ 0#8) :
    (f.updateAll rot steps xs).idle.toNat = min (f.idle.toNat + xs.length) 255 := by
  induction xs generalizing f with
  | nil => exact (Nat.min_eq_left (Nat.le_of_lt_succ f.idle.isLt)).symm
  | cons x xs ih =>
    rw [List.length_cons] at h ⊢
    have first : (f.update rot steps x).idle ≠ 0#8 := h 1 le_rfl (by omega)
    have counts := update_idle_of_not_confirms fun hc => first (update_of_confirms hc).1
    have rest := ih (f.update rot steps x) fun n _ hn => h (n + 1) (by omega) (by omega)
    exact rest.trans (by omega)

/-- A stream whose last update finds the timeout due leaves log and result clear (R150). -/
theorem updateAll_expired {xs : List Half} (hx : xs ≠ []) (f : FdeModule)
    (h : timeoutDue rot steps (f.updateAll rot steps xs).idle = true) :
    (f.updateAll rot steps xs).log0 = ⟨0#16, 0#8⟩ ∧ (f.updateAll rot steps xs).log1 = ⟨0#16, 0#8⟩ ∧
      (f.updateAll rot steps xs).result = 0#16 := by
  obtain ⟨ys, x, rfl⟩ := (List.eq_nil_or_concat xs).resolve_left hx
  rw [updateAll, List.concat_eq_append, List.foldl_append] at h ⊢
  exact update_expired rot steps x _ h

end FdeModule

/-! ### FDE_RD by its selector (R152) -/

theorem exec_fdeRd (k : Fin 8) {sel : BitVec 4} (h : sel.toNat ≤ 6) (s : State) :
    exec (.fdeRd (idOf k) sel) s = .next (s.respond (s.fde[k].read sel)) := by
  have hw : WellFormed (.fdeRd (idOf k) sel) := decide_eq_true h
  rw [exec_read hw (.inr (.inl ⟨_, _, rfl⟩)), readWord, idOf, moduleIndex_id]
  rfl

theorem exec_fdeRd_reserved {sel : BitVec 4} (h : 7 ≤ sel.toNat) (mod : BitVec 4) (s : State) :
    exec (.fdeRd mod sel) s = .next s.raiseIllegal := by
  have hl : fdeSelLegal sel = false := decide_eq_false (by omega)
  simp only [exec, execFdeRd, hl, Bool.false_eq_true, if_false]

end Sys2Proof.Machine

namespace Sys2Proof.Proofs

open Sys2Proof.Machine Sys2Proof.Claims

/-- Settles O13: the update's one confirmation test decides between the two cases of its log stage. -/
theorem fdeUpdLogsAConfirmedExtremum : Obligations.FdeUpdLogsAConfirmedExtremum := by
  intro s k x
  refine ⟨_, exec_fdeUpd k x s, ?_⟩
  rw [State.updateModule_same, timesOut_iff, Bool.not_eq_true]
  exact ⟨FdeModule.update_of_confirms,
    fun h => ⟨FdeModule.update_idle_of_not_confirms h, FdeModule.update_log_of_not_confirms h⟩⟩

/-- Settles O14: the timeout decides first, then the class of the module. -/
theorem fdeUpdComputesTheResult : Obligations.FdeUpdComputesTheResult := by
  intro s k x
  refine ⟨_, exec_fdeUpd k x s, ?_⟩
  rw [State.updateModule_same, timesOut_iff, FdeModule.confirms_update_iff, Bool.not_eq_true]
  refine ⟨FdeModule.update_expired _ _ _ _, fun ht hk h0 h1 => ?_, fun ht hk hw => ?_, fun ht hk hc => ?_,
    fun ht hk hc => ?_, ?_⟩
  · rw [FdeModule.update_result_collision (isRotation_false hk) ht]
    exact collisionResult_toNat h0 h1
  · rw [FdeModule.update_result_collision (isRotation_false hk) ht]
    exact collisionResult_eq_zero hw
  · rw [FdeModule.update_result_rotation (isRotation_true hk) ht, if_pos hc]
  · rw [FdeModule.update_result_rotation (isRotation_true hk) ht, if_neg hc]
  · rw [State.updateModule_resp]
    exact BitVec.toNat_setWidth_of_le (by decide)

/-- Settles O16: record and response are a function of the module, and of the step count for a rotation module. -/
theorem fdeUpdReadsOnlyItsModule : Obligations.FdeUpdReadsOnlyItsModule := by
  intro s₁ s₂ k x hf hs
  have same : s₁.fde[k].update (isRotation k) s₁.mps.steps x = s₂.fde[k].update (isRotation k) s₂.mps.steps x := by
    rw [hf]
    rcases hs with hk | hs
    · rw [isRotation_false hk]
      exact FdeModule.update_collision_steps _ _ _ _
    · rw [hs]
  refine ⟨_, _, exec_fdeUpd k x s₁, exec_fdeUpd k x s₂, ?_, ?_⟩
  · rw [State.updateModule_same, State.updateModule_same, same]
  · rw [State.updateModule_resp, State.updateModule_resp, same]

/-- Settles O19: from IDLE 0, twelve updates stay inside the refractory interval. -/
theorem confirmationsAreThirteenUpdatesApart : Obligations.ConfirmationsAreThirteenUpdatesApart := by
  intro s k xs hi hl
  obtain ⟨t, ht, hf⟩ := runAll_fdeUpd k xs s
  refine ⟨t, ht, ?_⟩
  have count := FdeModule.updateAll_refractory (rot := isRotation k) (steps := s.mps.steps) xs s.fde[k]
  rw [hi, BitVec.toNat_zero, Nat.zero_add] at count
  rw [hf]
  exact count hl

/-- Settles O21: with no confirmation IDLE reaches 42 by the last update, whose timeout clears log and result. -/
theorem fortyTwoUpdatesWithoutExtremumClearTheResult : Obligations.FortyTwoUpdatesWithoutExtremumClearTheResult := by
  intro s k xs hk hl hn
  obtain ⟨t, ht, hf⟩ := runAll_fdeUpd k xs s
  refine ⟨t, ht, ?_⟩
  rw [hf]
  have unconfirmed : ∀ n, 1 ≤ n → n ≤ xs.length →
      (s.fde[k].updateAll (isRotation k) s.mps.steps (xs.take n)).idle ≠ 0#8 := by
    intro n h1 h42
    obtain ⟨u, hu, hne⟩ := hn n h1 (hl ▸ h42)
    obtain ⟨v, hv, hfv⟩ := runAll_fdeUpd k (xs.take n) s
    obtain rfl : u = v := Host.Outcome.next.inj (hu.symm.trans hv)
    exact hfv ▸ hne
  have counted := FdeModule.updateAll_idle_of_ne_zero xs s.fde[k] unconfirmed
  refine FdeModule.updateAll_expired (List.ne_nil_of_length_pos (by omega)) _ ?_
  exact (timeoutDue_iff k _ _).mpr ⟨by omega, .inl hk⟩

/-- Settles O12: an update writes the rings by its push alone. -/
theorem fdeUpdPushesTheSample : Obligations.FdeUpdPushesTheSample := by
  intro s k x
  refine ⟨_, exec_fdeUpd k x s, ?_⟩
  simp only [State.updateModule_same, FdeModule.update_samples, FdeModule.update_grads]
  rw [shiftIn_zero, shiftIn_zero]
  refine ⟨rfl, fun a => shiftIn_succ _ _ a.val _, fun h => sgn_eq_pos (by omega), fun h => ?_,
    fun h => sgn_eq_neg (by omega), fun a => shiftIn_succ _ _ a.val _⟩
  rw [h, Int.sub_self, sgn_eq_zero]

/-- Settles O15: FDE_UPD is a write of its module and the response. -/
theorem fdeUpdChangesOnlyItsModule : Obligations.FdeUpdChangesOnlyItsModule :=
  fun s k x => ⟨_, exec_fdeUpd k x s, rfl, fun _ hj => State.updateModule_other hj x s⟩

/-- Settles O18: a legal selector of a module reads its field; an unrecognized module is O17's no-op; a reserved
selector is illegal before the module id is looked at. -/
theorem fdeRdReadsTheSelectedField : Obligations.FdeRdReadsTheSelectedField := by
  refine fun s k => ⟨exec_fdeRd k (by decide) s, exec_fdeRd k (by decide) s, exec_fdeRd k (by decide) s,
    exec_fdeRd k (by decide) s, exec_fdeRd k (by decide) s, exec_fdeRd k (by decide) s, exec_fdeRd k (by decide) s,
    fun m sel => ⟨fun hs => ?_, fun hs hm => ?_, fun hs => exec_fdeRd_reserved hs m s⟩⟩
  · exact decode_ok_iff.mpr ⟨decide_eq_true hs, rfl⟩
  · obtain ⟨-, -, hrd⟩ := unrecognizedModuleIsANoOp s m sel 0#16 hm
    exact (hrd hs).2

end Sys2Proof.Proofs

namespace Sys2Proof.Machine

open Sys2Proof.Claims

/-! ### The debounce commands by cases (R183 to R187) -/

section

variable {s : State}

theorem exec_dbBlk_owned (h : s.dbu.own ≠ .free) (p : BitVec 4) : exec (.dbBlk p) s = .next (s.respond 0#32) := by
  rcases execDbBlk_cases p s with ⟨-, e⟩ | ⟨hf, -⟩ | ⟨hf, -⟩
  · exact e
  all_goals exact absurd hf h

theorem exec_dbBlk_high {p : BitVec 4} (hf : s.dbu.own = .free) (hp : s.sample p = true) :
    exec (.dbBlk p) s = .next ((s.setDbu (s.dbu.acquireBlocking p)).setHeld true) := by
  rcases execDbBlk_cases p s with ⟨h, -⟩ | ⟨-, -, e⟩ | ⟨-, h, -⟩
  · exact absurd hf h
  · exact e
  · simp [hp] at h

theorem exec_dbBlk_low {p : BitVec 4} (hf : s.dbu.own = .free) (hp : s.sample p = false) :
    exec (.dbBlk p) s = .next ((s.setDbu (s.dbu.acquireBlocking p).release).respond 0#32) := by
  rcases execDbBlk_cases p s with ⟨h, -⟩ | ⟨-, h, -⟩ | ⟨-, -, e⟩
  · exact absurd hf h
  · simp [hp] at h
  · exact e

theorem exec_dbStart_owned (h : s.dbu.own ≠ .free) (p : BitVec 4) :
    exec (.dbStart p) s = .next (s.respond 0#32) := by
  rcases execDbStart_cases p s with ⟨-, e⟩ | ⟨hf, -⟩
  · exact e
  · exact absurd hf h

theorem exec_dbStart_free (hf : s.dbu.own = .free) (p : BitVec 4) :
    exec (.dbStart p) s = .next ((s.setDbu (s.dbu.startSession s.params.nbInc p)).respond 1#32) := by
  rcases execDbStart_cases p s with ⟨h, -⟩ | ⟨-, e⟩
  · exact absurd hf h
  · exact e

end

theorem exec_dbAdv (s : State) : exec .dbAdv s =
    .next ((s.setDbu (s.dbu.advance s.params (s.sample s.dbu.spin))).respond
      (zext (s.dbu.advance s.params (s.sample s.dbu.spin)).sstat.code)) := rfl

theorem exec_dbStat {sel : BitVec 4} (h : sel.toNat ≤ 2) (s : State) :
    exec (.dbStat sel) s = .next (s.respond (s.dbu.read sel)) :=
  execDbStat_legal (decide_eq_true (Nat.lt_succ_of_le h)) s

theorem exec_dbStat_reserved {sel : BitVec 4} (h : 3 ≤ sel.toNat) (s : State) :
    exec (.dbStat sel) s = .next s.raiseIllegal := by
  have hl : dbSelLegal sel = false := decide_eq_false (by omega)
  simp only [exec, execDbStat, hl, Bool.false_eq_true, if_false]

theorem exec_dbClr (s : State) :
    exec .dbClr s = .next ((s.setDbu s.dbu.clear).respond (zext s.dbu.clear.sstat.code)) := rfl

/-! ### The status codes and the status word (R57, R115) -/

theorem statusCode_toNat (st : SessionStatus) : st.code.toNat = statusNumber st := by
  cases st <;> rfl

theorem zext_statusCode_toNat (st : SessionStatus) : (zext st.code).toNat = statusNumber st :=
  (BitVec.toNat_setWidth_of_le (by decide)).trans (statusCode_toNat st)

theorem Dbu.statusWord_fields (d : Dbu) :
    d.statusWord.extractLsb' 16 16 = 0#16 ∧ d.statusWord.extractLsb' 12 4 = d.bpin ∧
      d.statusWord.extractLsb' 8 4 = d.spin ∧ d.statusWord.extractLsb' 6 2 = 0#2 ∧
      d.statusWord.extractLsb' 4 2 = d.own.code ∧ d.statusWord.extractLsb' 2 2 = 0#2 ∧
      d.statusWord.extractLsb' 0 2 = d.sstat.code := by
  have whole : field 0 32 d.statusWord = 0#16 ++ d.bpin ++ d.spin ++ 0#2 ++ d.own.code ++ 0#2 ++ d.sstat.code :=
    field_whole d.statusWord
  rw [field_eq_append_iff 30 2, field_eq_append_iff 28 2, field_eq_append_iff 26 2, field_eq_append_iff 24 2,
    field_eq_append_iff 20 4, field_eq_append_iff 16 4] at whole
  obtain ⟨⟨⟨⟨⟨⟨hzero, hbpin⟩, hspin⟩, hhigh⟩, hown⟩, hlow⟩, hsstat⟩ := whole
  exact ⟨hzero, hbpin, hspin, hhigh, hown, hlow, hsstat⟩

namespace Dbu

variable {d : Dbu}

theorem clear_finished (h : d.sstat = .succeeded ∨ d.sstat = .failed) : d.clear = { d with sstat := .idle } :=
  if_pos h

theorem clear_unfinished (h : d.sstat = .running ∨ d.sstat = .idle) : d.clear = d :=
  if_neg fun hf => by rcases h with h | h <;> simp [h] at hf

/-! ### An advance in each of its cases (R185) -/

theorem advance_not_running (h : d.sstat ≠ .running) (p : Params) (level : Bool) : d.advance p level = d := if_neg h

theorem advance_low (p : Params) (h : d.sstat = .running) (hn : d.nextAt.toNat ≤ d.dbt.toNat) :
    d.advance p false = d.finish .failed := by
  rcases d.advance_cases p false h with ⟨-, -, e⟩ | ⟨-, hl, -⟩ | ⟨hlt, -⟩
  · exact e
  · cases hl
  · omega

theorem advance_high (p : Params) (h : d.sstat = .running) (hn : d.nextAt.toNat ≤ d.dbt.toNat) :
    d.advance p true = ({ d with nextAt := satAdd d.nextAt p.nbInc } : Dbu).windowTest p.nbWindow := by
  rcases d.advance_cases p true h with ⟨-, hl, -⟩ | ⟨-, -, e⟩ | ⟨hlt, -⟩
  · cases hl
  · exact e
  · omega

theorem advance_not_due {p : Params} (level : Bool) (h : d.sstat = .running) (hn : d.dbt.toNat < d.nextAt.toNat) :
    d.advance p level = d.windowTest p.nbWindow := by
  rcases d.advance_cases p level h with ⟨hle, -⟩ | ⟨hle, -⟩ | ⟨-, e⟩
  · omega
  · omega
  · exact e

end Dbu

/-! ### The debounce tick in each of its cases (R189, R190) -/

section

variable {s : State}

theorem State.debounceTick_low (hb : s.dbu.own = .blocking) (hp : s.sample s.dbu.bpin = false) :
    s.debounceTick = (s.setDbu s.dbu.count).completeBlocking 0#32 := by
  rcases s.debounceTick_cases with ⟨h, -⟩ | ⟨-, -, e⟩ | ⟨-, h, -⟩ | ⟨-, h, -⟩
  · exact absurd hb h
  · exact e
  all_goals simp [hp] at h

theorem State.debounceTick_elapsed (hb : s.dbu.own = .blocking) (hp : s.sample s.dbu.bpin = true)
    (hw : s.params.blkWindow.toNat ≤ (satInc s.dbu.dbt).toNat) :
    s.debounceTick = (s.setDbu s.dbu.count).completeBlocking 1#32 := by
  rcases s.debounceTick_cases with ⟨h, -⟩ | ⟨-, h, -⟩ | ⟨-, -, -, e⟩ | ⟨-, -, h, -⟩
  · exact absurd hb h
  · simp [hp] at h
  · exact e
  · omega

theorem State.debounceTick_within (hb : s.dbu.own = .blocking) (hp : s.sample s.dbu.bpin = true)
    (hw : (satInc s.dbu.dbt).toNat < s.params.blkWindow.toNat) : s.debounceTick = s.setDbu s.dbu.count := by
  rcases s.debounceTick_cases with ⟨h, -⟩ | ⟨-, h, -⟩ | ⟨-, -, h, -⟩ | ⟨-, -, -, e⟩
  · exact absurd hb h
  · simp [hp] at h
  · omega
  · exact e

theorem step_dbtimer_owned (ha : s.nextTurn.agent = .dbtimer) (ho : s.dbu.own ≠ .free) :
    step s = .next s.takeTurn.debounceTick := by
  rw [step_dbtimer ha, State.debounceTurn_owned (s := s.takeTurn) ho]

end

theorem satInc_eq_of_toNat {v w : Half} (h : w.toNat = min (v.toNat + 1) 65535) : satInc v = w :=
  BitVec.eq_of_toNat_eq ((satInc_toNat v).trans h.symm)

theorem satAdd_eq_of_toNat {u v w : Half} (h : w.toNat = min (u.toNat + v.toNat) 65535) : satAdd u v = w :=
  BitVec.eq_of_toNat_eq ((satAdd_toNat u v).trans h.symm)

/-- A count below the top of the register is exact. -/
theorem Dbu.count_dbt {d : Dbu} {n : Nat} (h : d.dbt.toNat = n) (hn : n < 65535) : d.count.dbt.toNat = n + 1 := by
  rw [Dbu.count, satInc_toNat, h]
  exact Nat.min_eq_left hn

/-! ### A blocking call in progress -/

/-- A DB_BLK on pin `p` holds the port, with `n` debounce ticks counted. -/
structure State.Holding (p : BitVec 4) (n : Nat) (s : State) : Prop where
  held : s.held = true
  own : s.dbu.own = .blocking
  bpin : s.dbu.bpin = p
  dbt : s.dbu.dbt.toNat = n

theorem State.holding_start (p : BitVec 4) (s : State) :
    ((s.setDbu (s.dbu.acquireBlocking p)).setHeld true).Holding p 0 := ⟨rfl, rfl, rfl, rfl⟩

section

variable {p : BitVec 4} {n : Nat} {s : State} {q : Turn} {qs : List Turn}

theorem State.Holding.takeTurn (h : s.Holding p n) : s.takeTurn.Holding p n := ⟨h.held, h.own, h.bpin, h.dbt⟩

theorem State.Holding.not_free (h : s.Holding p n) : s.dbu.own ≠ .free := by simp [h.own]

theorem State.Holding.sample_takeTurn (h : s.Holding p n) (hs : s.script = q :: qs) :
    s.takeTurn.sample s.takeTurn.dbu.bpin = q.din.getLsbD p.toNat := by
  simp [State.sample, State.nextTurn_scripted hs, h.bpin]

/-- A tick below the window that finds the pin high only counts. -/
theorem State.Holding.debounceTick (h : s.Holding p n) (hp : s.sample s.dbu.bpin = true)
    (hn : n + 1 < s.params.blkWindow.toNat) :
    s.debounceTick = s.setDbu s.dbu.count ∧ (s.setDbu s.dbu.count).Holding p (n + 1) := by
  have hd : s.dbu.count.dbt.toNat = n + 1 := Dbu.count_dbt h.dbt (by omega)
  exact ⟨State.debounceTick_within h.own hp (hd.trans_lt hn), h.held, h.own, h.bpin, hd⟩

/-- Any turn but a reset keeps the hold and RESP, if it is no debounce tick or a high one below the window. -/
theorem step_holding (h : s.Holding p n) (hs : s.script = q :: qs) (hr : q.agent ≠ .resetLine)
    (hq : q.agent = .dbtimer → q.din.getLsbD p.toNat = true ∧ n + 1 < s.params.blkWindow.toNat) :
    ∃ t, step s = .next t ∧ t.script = qs ∧ t.params = s.params ∧ t.resp = s.resp ∧
      t.Holding p (n + if q.agent = .dbtimer then 1 else 0) := by
  have ha : s.nextTurn.agent = q.agent := congrArg Turn.agent (State.nextTurn_scripted hs)
  have htail : s.takeTurn.script = qs := by simp [hs]
  cases hc : q.agent <;> rw [hc] at ha
  case host => exact ⟨_, step_host_held ha h.held, htail, rfl, rfl, h.takeTurn⟩
  case env => exact ⟨_, step_env ha, htail, rfl, rfl, h.takeTurn⟩
  case resetLine => exact absurd hc hr
  case mtimer =>
    refine ⟨_, step_mtimer ha, ?_⟩
    by_cases hi : s.mps.ival = .off
    · rw [State.motorTurn_off (s := s.takeTurn) hi]
      exact ⟨htail, rfl, rfl, h.takeTurn⟩
    · rw [State.motorTurn_on (s := s.takeTurn) hi]
      exact ⟨htail, rfl, rfl, h.takeTurn.held, h.own, h.bpin, h.dbt⟩
  case dbtimer =>
    obtain ⟨hp, hw⟩ := hq hc
    obtain ⟨e, hh⟩ := h.takeTurn.debounceTick ((h.sample_takeTurn hs).trans hp) hw
    exact ⟨_, (step_dbtimer_owned ha h.not_free).trans (congrArg _ e), htail, rfl, rfl, hh⟩

end

/-- A hold lasts through any turns without a reset, while every debounce tick is high and the window is not reached. -/
theorem runFor_holding {p : BitVec 4} (qs : List Turn) (hr : NoReset qs)
    (hp : ∀ q ∈ qs, q.agent = .dbtimer → q.din.getLsbD p.toNat = true) {n : Nat} {s : State} {rest : List Turn}
    (h : s.Holding p n) (hs : s.script = qs ++ rest) (hw : n + countOf .dbtimer qs < s.params.blkWindow.toNat) :
    ∃ t, runFor qs.length s = .next t ∧ t.script = rest ∧ t.params = s.params ∧ t.resp = s.resp ∧
      t.Holding p (n + countOf .dbtimer qs) := by
  induction qs generalizing n s with
  | nil => exact ⟨s, rfl, hs, rfl, rfl, h⟩
  | cons q qs ih =>
    rw [countOf_cons] at hw ⊢
    obtain ⟨u, hu, hus, hup, hur, huh⟩ := step_holding h hs (hr q List.mem_cons_self) fun ha =>
      ⟨hp q List.mem_cons_self ha, by rw [if_pos ha] at hw; omega⟩
    obtain ⟨t, ht, hts, htp, htr, hth⟩ := ih (fun r hm => hr r (List.mem_cons_of_mem q hm))
      (fun r hm => hp r (List.mem_cons_of_mem q hm)) huh hus (by rw [hup]; omega)
    refine ⟨t, by simp only [List.length_cons, runFor, hu, ht], hts, htp.trans hup, htr.trans hur, ?_⟩
    rwa [Nat.add_assoc, Nat.add_comm (ite _ _ _)] at hth

end Sys2Proof.Machine

namespace Sys2Proof.Proofs

open Sys2Proof.Machine Sys2Proof.Claims

/-- Settles O39: DB_BLK starts a hold, the turns of the script keep it, and the last tick completes it by its pin level
and the window. -/
theorem blockingDebounceAnswersAtTheRightTick : Obligations.BlockingDebounceAnswersAtTheRightTick := by
  intro s p ts rest d hf hp hs hr hhigh hw hd
  obtain ⟨v, hv, hvs, hvp, hvr, hvh⟩ := runFor_holding ts hr hhigh (s.holding_start p) hs (by simpa using hw)
  rw [Nat.zero_add] at hvh
  have ha : v.nextTurn.agent = .dbtimer := (congrArg Turn.agent (State.nextTurn_scripted hvs)).trans hd
  have hsample := hvh.sample_takeTurn hvs
  refine ⟨_, v, _, exec_dbBlk_high hf hp, hv, step_dbtimer_owned ha hvh.not_free,
    ⟨hvh.held, hvh.own, hvh.dbt, hvr⟩, fun hl => ?_, fun hh hn => ?_⟩
  · rw [State.debounceTick_low (s := v.takeTurn) hvh.own (hsample.trans hl)]
    exact ⟨rfl, rfl, rfl⟩
  · have hlt := s.params.blkWindow.isLt
    have hc : v.dbu.count.dbt.toNat = countOf .dbtimer ts + 1 := Dbu.count_dbt hvh.dbt (by omega)
    have hle : v.params.blkWindow.toNat ≤ v.dbu.count.dbt.toNat := by rw [hvp, hc]; exact hn.ge
    rw [State.debounceTick_elapsed (s := v.takeTurn) hvh.own (hsample.trans hh) hle]
    exact ⟨rfl, rfl, rfl⟩

end Sys2Proof.Proofs

namespace Sys2Proof.Machine

open Sys2Proof.Claims

/-! ### Sample points (R188) -/

/-- The first multiple of `inc` above `n`. -/
def samplePoint (inc n : Nat) : Nat := inc * (n / inc + 1)

theorem samplePoint_zero (inc : Nat) : samplePoint inc 0 = inc := by
  rw [samplePoint, Nat.zero_div, Nat.zero_add, Nat.mul_one]

/-- The point above `n` is `n + 1` itself exactly when `inc` divides it. -/
theorem samplePoint_le_succ_iff {inc : Nat} (hi : 1 ≤ inc) (n : Nat) :
    samplePoint inc n ≤ n + 1 ↔ inc ∣ n + 1 := by
  rw [samplePoint, Nat.mul_comm, ← Nat.le_div_iff_mul_le hi, Nat.succ_div]
  split <;> simp [*]

theorem samplePoint_succ_of_dvd {inc n : Nat} (h : inc ∣ n + 1) :
    samplePoint inc (n + 1) = samplePoint inc n + inc := by
  rw [samplePoint, samplePoint, Nat.succ_div_of_dvd h, Nat.mul_succ]

theorem samplePoint_succ_of_not_dvd {inc n : Nat} (h : ¬ inc ∣ n + 1) :
    samplePoint inc (n + 1) = samplePoint inc n := by
  rw [samplePoint, samplePoint, Nat.succ_div_of_not_dvd h]

/-! ### A running session, advanced after every tick -/

namespace Dbu

/-- A running session on pin `p` that has been advanced at each of its `n` ticks so far: NEXT is the sample point above
DBT, saturated. -/
structure Sampling (inc : Half) (p : BitVec 4) (n : Nat) (d : Dbu) : Prop where
  own : d.own = .session
  sstat : d.sstat = .running
  spin : d.spin = p
  dbt : d.dbt.toNat = n
  nextAt : d.nextAt.toNat = min (samplePoint inc.toNat n) 65535

theorem startSession_sampling (inc : Half) (p : BitVec 4) (d : Dbu) : (d.startSession inc p).Sampling inc p 0 := by
  refine ⟨rfl, rfl, rfl, rfl, ?_⟩
  rw [samplePoint_zero]
  exact (Nat.min_eq_left (Nat.le_of_lt_succ inc.isLt)).symm

section

variable {pars : Params} {p : BitVec 4} {n : Nat} {d : Dbu}

theorem Sampling.count_running (h : d.Sampling pars.nbInc p n) : d.count.sstat = .running := h.sstat

/-- At a multiple of NB_INC the next tick's advance takes a sample. -/
theorem Sampling.count_due (h : d.Sampling pars.nbInc p n) (hi : 1 ≤ pars.nbInc.toNat) (hn : n < 65535)
    (hd : pars.nbInc.toNat ∣ n + 1) : d.count.nextAt.toNat ≤ d.count.dbt.toNat := by
  have hle := (samplePoint_le_succ_iff hi n).mpr hd
  rw [count_dbt h.dbt hn]
  exact h.nextAt.trans_le ((Nat.min_le_left _ _).trans hle)

/-- At any other DBT below the top of NEXT it takes none. -/
theorem Sampling.count_not_due (h : d.Sampling pars.nbInc p n) (hi : 1 ≤ pars.nbInc.toNat) (hn : n + 1 < 65535)
    (hd : ¬ pars.nbInc.toNat ∣ n + 1) : d.count.dbt.toNat < d.count.nextAt.toNat := by
  have hlt := Nat.lt_of_not_le (mt (samplePoint_le_succ_iff hi n).mp hd)
  rw [count_dbt h.dbt (by omega)]
  exact (Nat.lt_min.mpr ⟨hlt, hn⟩).trans_eq h.nextAt.symm

/-- Below the window an advance that is not due keeps the session. -/
theorem Sampling.advance_not_due (h : d.Sampling pars.nbInc p n) (hp : pars.Legal)
    (hn : n + 1 < pars.nbWindow.toNat) (hd : ¬ pars.nbInc.toNat ∣ n + 1) (level : Bool) :
    (d.count.advance pars level).Sampling pars.nbInc p (n + 1) := by
  have hw := pars.nbWindow.isLt
  have hc : d.count.dbt.toNat = n + 1 := count_dbt h.dbt (by omega)
  rw [Dbu.advance_not_due level h.count_running (h.count_not_due hp.nbInc_pos (by omega) hd),
    windowTest_running (hc.trans_lt hn)]
  exact ⟨h.own, h.sstat, h.spin, hc, h.nextAt.trans (by rw [samplePoint_succ_of_not_dvd hd])⟩

/-- Below the window a high pin keeps the session, sampled or not. -/
theorem Sampling.advance_high (h : d.Sampling pars.nbInc p n) (hp : pars.Legal)
    (hn : n + 1 < pars.nbWindow.toNat) : (d.count.advance pars true).Sampling pars.nbInc p (n + 1) := by
  by_cases hd : pars.nbInc.toNat ∣ n + 1
  · have hw := pars.nbWindow.isLt
    have hc : d.count.dbt.toNat = n + 1 := count_dbt h.dbt (by omega)
    have hnext : (satAdd d.nextAt pars.nbInc).toNat = min (samplePoint pars.nbInc.toNat (n + 1)) 65535 := by
      have hs := h.nextAt
      rw [satAdd_toNat, samplePoint_succ_of_dvd hd]
      omega
    rw [Dbu.advance_high pars h.count_running (h.count_due hp.nbInc_pos (by omega) hd), windowTest_running]
    · exact ⟨h.own, h.sstat, h.spin, hc, hnext⟩
    · exact hc.trans_lt hn
  · exact h.advance_not_due hp hn hd true

theorem windowTest_succeeds {w : Half} (h : w.toNat ≤ d.dbt.toNat) :
    (d.windowTest w).sstat = .succeeded ∧ (d.windowTest w).own = .free := by
  rw [windowTest_elapsed h]
  exact ⟨rfl, rfl⟩

/-- At the window a high pin ends the session in success, sampled or not. -/
theorem Sampling.advance_high_window (h : d.Sampling pars.nbInc p n) (hn : n + 1 = pars.nbWindow.toNat) :
    (d.count.advance pars true).sstat = .succeeded ∧ (d.count.advance pars true).own = .free := by
  have hw := pars.nbWindow.isLt
  have hc : pars.nbWindow.toNat ≤ d.count.dbt.toNat := by rw [count_dbt h.dbt (by omega), hn]
  rcases d.count.advance_cases pars true h.count_running with ⟨-, hl, -⟩ | ⟨-, -, e⟩ | ⟨-, e⟩
  · cases hl
  · rw [e]
    exact windowTest_succeeds hc
  · rw [e]
    exact windowTest_succeeds hc

/-- A low pin fails the session at a multiple of NB_INC. -/
theorem Sampling.advance_low (h : d.Sampling pars.nbInc p n) (hi : 1 ≤ pars.nbInc.toNat) (hn : n < 65535)
    (hd : pars.nbInc.toNat ∣ n + 1) :
    (d.count.advance pars false).sstat = .failed ∧ (d.count.advance pars false).own = .free := by
  rw [Dbu.advance_low pars h.count_running (h.count_due hi hn hd)]
  exact ⟨rfl, rfl⟩

/-- A window that is no sample point ends the session in success, whatever the pin. -/
theorem Sampling.advance_not_due_window (h : d.Sampling pars.nbInc p n) (hi : 1 ≤ pars.nbInc.toNat)
    (hn : n + 1 = pars.nbWindow.toNat) (hw : pars.nbWindow.toNat < 65535) (hd : ¬ pars.nbInc.toNat ∣ n + 1)
    (level : Bool) :
    (d.count.advance pars level).sstat = .succeeded ∧ (d.count.advance pars level).own = .free := by
  have hc : pars.nbWindow.toNat ≤ d.count.dbt.toNat := by rw [count_dbt h.dbt (by omega), hn]
  rw [Dbu.advance_not_due level h.count_running (h.count_not_due hi (by omega) hd)]
  exact windowTest_succeeds hc

end

@[simp] theorem windowTest_dbt (w : Half) (d : Dbu) : (d.windowTest w).dbt = d.dbt := by
  unfold windowTest
  split <;> rfl

@[simp] theorem advance_dbt (p : Params) (level : Bool) (d : Dbu) : (d.advance p level).dbt = d.dbt := by
  by_cases hr : d.sstat = .running
  · rcases d.advance_cases p level hr with ⟨-, -, e⟩ | ⟨-, -, e⟩ | ⟨-, e⟩ <;> rw [e]
    · rfl
    · exact windowTest_dbt _ _
    · exact windowTest_dbt _ _
  · rw [advance_not_running hr]

end Dbu

/-! ### One tick and one DB_ADV -/

theorem decode_dbAdv : decode 0x32000000#32 = .ok .dbAdv := decode_ok_iff.mpr ⟨rfl, rfl⟩

theorem runFor_add {m n : Nat} {s t : State} (h : runFor m s = .next t) : runFor (m + n) s = runFor n t := by
  induction m generalizing s with
  | zero =>
    cases h
    rw [Nat.zero_add]
  | succ m ih =>
    rw [Nat.succ_add]
    simp only [runFor] at h ⊢
    split at h
    · exact ih h
    · cases h
    · cases h

theorem runFor_two {s u t : State} (hu : step s = .next u) (ht : step u = .next t) : runFor 2 s = .next t := by
  simp only [runFor, hu, ht]

/-- A session's tick and the HOST's DB_ADV after it: the DBU counts and is advanced with its pin at the HOST's turn. -/
theorem runFor_round {s : State} {q : Turn × Turn} {rest : List Turn} {more : List HostWrite}
    (hs : s.script = q.1 :: q.2 :: rest) (hc : s.cmds = .word 0x32000000#32 :: more) (hh : s.held = false)
    (ho : s.dbu.own = .session) (h1 : q.1.agent = .dbtimer) (h2 : q.2.agent = .host) :
    ∃ t, runFor 2 s = .next t ∧ t.script = rest ∧ t.cmds = more ∧ t.held = false ∧ t.params = s.params ∧
      t.dbu = s.dbu.count.advance s.params (q.2.din.getLsbD s.dbu.spin.toNat) ∧
      t.resp = zext t.dbu.sstat.code := by
  have htick : step s = .next (s.takeTurn.setDbu s.dbu.count) := by
    rw [step_dbtimer_owned ((congrArg Turn.agent (State.nextTurn_scripted hs)).trans h1) (by simp [ho]),
      State.debounceTick_not_blocking (s := s.takeTurn) (by simp [ho])]
    rfl
  have hs' : (s.takeTurn.setDbu s.dbu.count).script = q.2 :: rest := by simp [hs]
  have hturn := State.nextTurn_scripted hs'
  have hadv := step_host_word (s := s.takeTurn.setDbu s.dbu.count) ((congrArg Turn.agent hturn).trans h2) hh hc
  rw [State.issue_ok decode_dbAdv, exec_dbAdv] at hadv
  have hpin : (s.takeTurn.setDbu s.dbu.count).takeTurn.dropWrite.sample s.dbu.spin =
      q.2.din.getLsbD s.dbu.spin.toNat := by simp [State.sample, hturn]
  refine ⟨_, runFor_two htick hadv, ?_, ?_, hh, rfl, ?_, rfl⟩
  · simp [hs]
  · simp [hc]
  · exact congrArg (fun level => s.dbu.count.advance s.params level) hpin

/-- Ticks each followed by a DB_ADV on a high pin keep a session below its window. -/
theorem runFor_rounds {p : BitVec 4} {pars : Params} (hp : pars.Legal) (ts : List (Turn × Turn))
    (ht : ∀ q ∈ ts, q.1.agent = .dbtimer ∧ q.2.agent = .host ∧ q.2.din.getLsbD p.toNat = true)
    {n : Nat} {s : State} {rest : List Turn} {more : List HostWrite}
    (hs : s.script = (ts.flatMap fun q => [q.1, q.2]) ++ rest)
    (hc : s.cmds = List.replicate ts.length (.word 0x32000000#32) ++ more) (hh : s.held = false)
    (hpars : s.params = pars) (hd : s.dbu.Sampling pars.nbInc p n) (hn : n + ts.length < pars.nbWindow.toNat) :
    ∃ t, runFor (2 * ts.length) s = .next t ∧ t.script = rest ∧ t.cmds = more ∧ t.held = false ∧
      t.params = pars ∧ t.dbu.Sampling pars.nbInc p (n + ts.length) := by
  induction ts generalizing n s with
  | nil => exact ⟨s, rfl, hs, hc, hh, hpars, hd⟩
  | cons q ts ih =>
    obtain ⟨h1, h2, hhigh⟩ := ht q List.mem_cons_self
    rw [List.length_cons] at hn hc ⊢
    obtain ⟨u, hu, hus, huc, huh, hup, hud, -⟩ := runFor_round hs hc hh hd.own h1 h2
    rw [hpars, hd.spin, hhigh] at hud
    have hsampling : u.dbu.Sampling pars.nbInc p (n + 1) := hud ▸ hd.advance_high hp (by omega)
    obtain ⟨t, hrun, hts, htc, hth, htp, htd⟩ :=
      ih (fun r hr => ht r (List.mem_cons_of_mem q hr)) hus huc huh (hup.trans hpars) hsampling (by omega)
    refine ⟨t, ?_, hts, htc, hth, htp, ?_⟩
    · rw [Nat.mul_succ, Nat.add_comm, runFor_add hu]
      exact hrun
    · rwa [Nat.add_assoc, Nat.add_comm 1] at htd

/-- A whole session up to its last round: after DB_START, rounds with a high pin, then one round with any level, which
advances a session that is still sampling. -/
theorem runFor_session {s : State} {p : BitVec 4} {ts : List (Turn × Turn)} {q : Turn × Turn} {rest : List Turn}
    {more : List HostWrite} (hf : s.dbu.own = .free) (hh : s.held = false) (hp : s.params.Legal)
    (hn : ts.length + 1 ≤ s.params.nbWindow.toNat)
    (hs : s.script = (ts.flatMap fun r => [r.1, r.2]) ++ q.1 :: q.2 :: rest)
    (hc : s.cmds = List.replicate (ts.length + 1) (.word 0x32000000#32) ++ more)
    (ht : ∀ r ∈ ts, r.1.agent = .dbtimer ∧ r.2.agent = .host ∧ r.2.din.getLsbD p.toNat = true)
    (h1 : q.1.agent = .dbtimer) (h2 : q.2.agent = .host) :
    ∃ (u : State) (d : Dbu) (t : State), exec (.dbStart p) s = .next u ∧
      runFor (2 * (ts.length + 1)) u = .next t ∧ d.Sampling s.params.nbInc p ts.length ∧
      t.dbu = d.count.advance s.params (q.2.din.getLsbD p.toNat) ∧ t.resp = zext t.dbu.sstat.code := by
  rw [List.replicate_succ', List.append_assoc] at hc
  obtain ⟨v, hv, hvs, hvc, hvh, hvp, hvd⟩ :=
    runFor_rounds (s := (s.setDbu (s.dbu.startSession s.params.nbInc p)).respond 1#32) hp ts ht hs hc hh rfl
      (Dbu.startSession_sampling _ p _) (by omega)
  rw [Nat.zero_add] at hvd
  obtain ⟨t, htr, -, -, -, -, htd, htv⟩ := runFor_round hvs hvc hvh hvd.own h1 h2
  rw [hvp, hvd.spin] at htd
  exact ⟨_, v.dbu, t, exec_dbStart_free hf p, (runFor_add hv).trans htr, hvd, htd, htv⟩

end Sys2Proof.Machine

namespace Sys2Proof.Proofs

open Sys2Proof.Machine Sys2Proof.Claims

/-- Settles O41: without a round DB_START alone has answered; otherwise the last round is an advance on a high pin. -/
theorem sessionHeldHighSucceeds : Obligations.SessionHeldHighSucceeds := by
  intro s p ts rest more hf hh hp hn hs hc ht
  rcases List.eq_nil_or_concat ts with rfl | ⟨ys, q, rfl⟩
  · exact ⟨_, _, exec_dbStart_free hf p, rfl, fun _ => ⟨rfl, rfl⟩,
      fun h => absurd h (Nat.ne_of_lt hp.nbWindow_pos)⟩
  · simp only [List.concat_eq_append, List.forall_mem_append, List.forall_mem_singleton] at ht
    obtain ⟨hts, h1, h2, hhigh⟩ := ht
    simp only [List.length_concat] at hn hc ⊢
    obtain ⟨u, d, t, hu, hrun, hd, htd, htv⟩ :=
      runFor_session (ts := ys) (q := q) hf hh hp hn (by simpa using hs) hc hts h1 h2
    rw [hhigh] at htd
    refine ⟨u, t, hu, hrun, fun hlt => ?_, fun he => ?_⟩
    · have hst : t.dbu.sstat = .running := htd ▸ (hd.advance_high hp hlt).sstat
      exact ⟨hst, by rw [htv, hst]; rfl⟩
    · obtain ⟨hst, hown⟩ := hd.advance_high_window he
      rw [← htd] at hst hown
      exact ⟨hst, hown, by rw [htv, hst]; rfl⟩

/-- Settles O60: the last round advances a session whose NEXT is the sample point above the ticks so far, and that point
is this tick exactly at a multiple of NB_INC. -/
theorem sessionSamplesExactlyItsSchedule : Obligations.SessionSamplesExactlyItsSchedule := by
  intro s p ts q rest more hf hh hp hn hs hc ht h1 h2 hlow
  have hw := s.params.nbWindow.isLt
  obtain ⟨u, d, t, hu, hrun, hd, htd, htv⟩ := runFor_session hf hh hp hn hs hc ht h1 h2
  rw [hlow] at htd
  refine ⟨u, t, hu, hrun, ?_, fun hdvd => ?_, fun hdvd hlt => ?_, fun hdvd he htop => ?_⟩
  · rw [htd, Dbu.advance_dbt]
    exact Dbu.count_dbt hd.dbt (by omega)
  · obtain ⟨hst, hown⟩ := hd.advance_low hp.nbInc_pos (by omega) hdvd
    rw [← htd] at hst hown
    exact ⟨hst, hown, by rw [htv, hst]; rfl⟩
  · have hnext := hd.advance_not_due hp hlt hdvd false
    rw [← htd] at hnext
    exact ⟨hnext.sstat, hnext.own, by rw [htv, hnext.sstat]; rfl⟩
  · obtain ⟨hst, hown⟩ := hd.advance_not_due_window hp.nbInc_pos he htop hdvd false
    rw [← htd] at hst hown
    exact ⟨hst, hown, by rw [htv, hst]; rfl⟩

/-! ### The debounce commands and the tick, one by one -/

/-- Settles O36: the advance by cases, with the window test of each case decided by the hypotheses. -/
theorem dbAdvAdvancesTheSession : Obligations.DbAdvAdvancesTheSession := by
  refine ⟨decode_dbAdv, fun s later hlater => ⟨_, exec_dbAdv s, rfl, zext_statusCode_toNat _, fun hr => ?_,
    fun hr hn hl => ?_, fun hr hn hl hw => ?_, fun hr hn hl hw => ?_, fun hr hn hw => ?_, fun hr hn hw => ?_⟩⟩ <;>
    rw [State.respond_dbu, State.setDbu_dbu]
  · exact Dbu.advance_not_running hr _ _
  · rw [State.sample, hl]
    exact Dbu.advance_low s.params hr hn
  · rw [State.sample, hl, Dbu.advance_high s.params hr hn, satAdd_eq_of_toNat hlater]
    exact Dbu.windowTest_elapsed hw
  · rw [State.sample, hl, Dbu.advance_high s.params hr hn, satAdd_eq_of_toNat hlater]
    exact Dbu.windowTest_running hw
  · rw [Dbu.advance_not_due _ hr hn]
    exact Dbu.windowTest_elapsed hw
  · rw [Dbu.advance_not_due _ hr hn]
    exact Dbu.windowTest_running hw

/-- Settles O42: a low sample fails the session, and before its first sample point the session is below its window. -/
theorem successNeedsAHighSample : Obligations.SuccessNeedsAHighSample := by
  intro s t hp hr hn h hsucc
  cases h
  have hdbu : (s.dbu.advance s.params (s.sample s.dbu.spin)).sstat = .succeeded := hsucc
  rcases s.dbu.advance_cases s.params (s.sample s.dbu.spin) hr with ⟨-, -, e⟩ | ⟨-, hl, -⟩ | ⟨hlt, e⟩
  · rw [e] at hdbu
    cases hdbu
  · exact hl
  · have hle := hp.nbInc_le
    rw [e, Dbu.windowTest_running (by rw [hn] at hlt; omega), hr] at hdbu
    cases hdbu

/-- Settles O33: both commands only respond on an owned timer. -/
theorem ownedTimerRejectsRequests : Obligations.OwnedTimerRejectsRequests :=
  fun _ p h => ⟨exec_dbBlk_owned h p, exec_dbStart_owned h p⟩

/-- Settles O34: DB_BLK by the owner of the timer and the level of its pin. -/
theorem dbBlkHoldsOnAHighPin : Obligations.DbBlkHoldsOnAHighPin :=
  fun _ p => ⟨decode_ok_iff.mpr ⟨rfl, rfl⟩, fun h => exec_dbBlk_owned h p, exec_dbBlk_high, exec_dbBlk_low⟩

/-- Settles O35: DB_START by the owner of the timer. -/
theorem dbStartStartsASession : Obligations.DbStartStartsASession :=
  fun _ p => ⟨decode_ok_iff.mpr ⟨rfl, rfl⟩, fun h => exec_dbStart_owned h p, fun h => exec_dbStart_free h p⟩

/-- Settles O37: DB_STAT answers the word of its selector, whose fields are the registers; DB_CLR writes the status of a
finished session alone. -/
theorem dbStatAndDbClr : Obligations.DbStatAndDbClr := by
  intro s
  refine ⟨⟨s.dbu.statusWord, exec_dbStat (sel := 0) (by decide) s, ?_⟩, exec_dbStat (by decide) s,
    exec_dbStat (by decide) s,
    fun sel => ⟨fun h => decode_ok_iff.mpr ⟨decide_eq_true h, rfl⟩, fun h => exec_dbStat_reserved h s⟩,
    decode_ok_iff.mpr ⟨rfl, rfl⟩, fun h => ?_, fun h => ?_, fun h => ?_⟩
  · obtain ⟨hzero, hbpin, hspin, hhigh, hown, hlow, hsstat⟩ := s.dbu.statusWord_fields
    refine ⟨hbpin, hspin, ?_, ?_, hlow, hhigh, hzero⟩
    · rw [hown]
      cases s.dbu.own <;> decide
    · rw [hsstat]
      exact statusCode_toNat _
  · rw [exec_dbClr, Dbu.clear_finished h]
    rfl
  · rw [exec_dbClr, Dbu.clear_unfinished (.inl h), h]
    rfl
  · rw [exec_dbClr, Dbu.clear_unfinished (.inr h), h]
    rfl

/-- Settles O38: the tick of an owned timer by its owner, the pin's level and the window. -/
theorem debounceTickCountsAndCompletes : Obligations.DebounceTickCountsAndCompletes := by
  intro s dbt ha hdbt
  obtain rfl := satInc_eq_of_toNat hdbt
  refine ⟨fun ho => ?_, fun ho hp => ?_, fun ho hp hw => ?_, fun ho hp hw => ?_⟩ <;>
    rw [step_dbtimer_owned ha (by simp [ho])]
  · rw [State.debounceTick_not_blocking (s := s.takeTurn) (by simp [ho])]
    rfl
  · rw [State.debounceTick_low (s := s.takeTurn) ho hp]
    rfl
  · rw [State.debounceTick_elapsed (s := s.takeTurn) ho hp hw]
    rfl
  · rw [State.debounceTick_within (s := s.takeTurn) ho hp hw]
    rfl

end Sys2Proof.Proofs

namespace Sys2Proof.Machine

open Sys2Proof.Claims

/-! ### The motor tick in each of its cases (R236 to R238) -/

theorem step_mtimer_on {s : State} (ha : s.nextTurn.agent = .mtimer) (hi : s.mps.ival ≠ .off) :
    step s = .next (s.takeTurn.setMps s.mps.tick) := by
  rw [step_mtimer ha, State.motorTurn_on (s := s.takeTurn) hi, State.takeTurn_mps]

namespace Mps

section

variable {m : Mps}

theorem tick_idle (h : m.advance.steps ≠ m.thresh) (hc : m.cdown = 0#16) : m.tick = m.advance := by
  rcases m.tick_cases with ⟨e, -⟩ | ⟨-, hn, -⟩ | ⟨-, -, e⟩
  · exact absurd e h
  · exact absurd hc hn
  · exact e

theorem tick_counting (h : m.advance.steps ≠ m.thresh) (hc : m.cdown ≠ 0#16) : m.tick = m.advance.countDown := by
  rcases m.tick_cases with ⟨e, -⟩ | ⟨-, -, e⟩ | ⟨-, hz, -⟩
  · exact absurd e h
  · exact e
  · exact absurd hz hc

theorem tick_countdown_ends (h : m.advance.steps ≠ m.thresh) (hc : m.cdown = 1#16) :
    m.tick = { m.advance with cdown := 0#16, ival := .fast, oe := true } := by
  rw [tick_counting h (by simp [hc])]
  rcases m.advance.countDown_cases with ⟨-, e⟩ | ⟨hn, -⟩
  · exact e
  · exact absurd hc hn

theorem tick_countdown_runs (h : m.advance.steps ≠ m.thresh) (hc : 2 ≤ m.cdown.toNat) :
    m.tick = { m.advance with cdown := m.cdown - 1#16 } := by
  rw [tick_counting h (fun e => by simp [e] at hc)]
  rcases m.advance.countDown_cases with ⟨(h1 : m.cdown = 1#16), -⟩ | ⟨-, e⟩
  · simp [h1] at hc
  · exact e

/-- A tick that does not force the stop, by the soft start's countdown. -/
theorem tick_unforced_cases (h : m.advance.steps ≠ m.thresh) :
    (m.cdown.toNat = 0 ∧ m.tick = m.advance) ∨
    (m.cdown.toNat = 1 ∧ m.tick = { m.advance with cdown := 0#16, ival := .fast, oe := true }) ∨
    (2 ≤ m.cdown.toNat ∧ m.tick = { m.advance with cdown := m.cdown - 1#16 }) := by
  by_cases h0 : m.cdown = 0#16
  · exact .inl ⟨congrArg BitVec.toNat h0, tick_idle h h0⟩
  by_cases h1 : m.cdown = 1#16
  · exact .inr (.inl ⟨congrArg BitVec.toNat h1, tick_countdown_ends h h1⟩)
  have h2 : 2 ≤ m.cdown.toNat := by bv_omega
  exact .inr (.inr ⟨h2, tick_countdown_runs h h2⟩)

/-- Only the forced stop turns the interval OFF. -/
theorem tick_ival_ne_off (h : m.advance.steps ≠ m.thresh) (hi : m.ival ≠ .off) : m.tick.ival ≠ .off := by
  rcases tick_unforced_cases h with ⟨-, e⟩ | ⟨-, e⟩ | ⟨-, e⟩ <;> rw [e]
  · exact hi
  · simp
  · exact hi

end

/-! ### Runs of ticks on the motor sequencer -/

/-- MTIMER's turn, on the motor sequencer alone (R227, R236). -/
def turn (m : Mps) : Mps := if m.ival = .off then m else m.tick

theorem turn_off {m : Mps} (h : m.ival = .off) : m.turn = m := if_pos h

theorem turn_on {m : Mps} (h : m.ival ≠ .off) : m.turn = m.tick := if_neg h

end Mps

theorem State.motorTurn_mps (s : State) : s.motorTurn.mps = s.mps.turn := by
  by_cases h : s.mps.ival = .off
  · rw [State.motorTurn_off h, Mps.turn_off h]
  · rw [State.motorTurn_on h, Mps.turn_on h, State.setMps_mps]

/-- The turn of a timer or of the inputs is a turn of the motor sequencer when it is MTIMER's, and else leaves it. -/
theorem step_tick_turn {s : State} {q : Turn} {qs : List Turn} (hs : s.script = q :: qs)
    (hq : q.agent = .mtimer ∨ q.agent = .dbtimer ∨ q.agent = .env) :
    ∃ t, step s = .next t ∧ t.script = qs ∧ t.mps = Mps.turn^[if q.agent = .mtimer then 1 else 0] s.mps := by
  obtain ⟨t, ht, hts, htm⟩ := step_tick hs hq
  refine ⟨t, ht, hts, htm.trans ?_⟩
  by_cases ha : q.agent = .mtimer <;> simp [ha, Mps.turn]

/-- Any mix of ticks makes as many turns of the motor sequencer as it has turns of MTIMER. -/
theorem runFor_turns (qs : List Turn) (hq : OnlyTicks qs) {s : State} {rest : List Turn} (hs : s.script = qs ++ rest) :
    ∃ t, runFor qs.length s = .next t ∧ t.mps = Mps.turn^[countOf .mtimer qs] s.mps := by
  induction qs generalizing s with
  | nil => exact ⟨s, rfl, rfl⟩
  | cons q qs ih =>
    obtain ⟨u, hu, hus, hum⟩ := step_tick_turn hs (hq q List.mem_cons_self)
    obtain ⟨t, ht, htm⟩ := ih (fun p hp => hq p (List.mem_cons_of_mem q hp)) hus
    refine ⟨t, by simp only [List.length_cons, runFor, hu, ht], ?_⟩
    rw [htm, hum, countOf_cons, Function.iterate_add_apply]

/-! ### A maneuver below and at its threshold (R239, R240) -/

namespace Mps

/-- The maneuver that stood at `start` when it began still runs after `n` motor ticks. -/
structure Running (m start : Mps) (n : Nat) : Prop where
  mode : m.mode = start.mode
  thresh : m.thresh = start.thresh
  done : m.done = false
  ival : m.ival ≠ .off
  steps : m.steps.toNat = min n 65535
  phase : m.phase = start.phase + BitVec.ofNat 3 n

/-- The maneuver that stood at `start` when it began was stopped at its threshold. -/
structure Ended (m start : Mps) : Prop where
  mode : m.mode = .stop
  done : m.done = true
  ival : m.ival = .off
  oe : m.oe = false
  steps : m.steps = start.thresh
  phase : m.phase = start.phase + BitVec.ofNat 3 start.thresh.toNat

/-- The `n`-th motor tick of a maneuver does not reach its threshold; STEPS never reaches a threshold of 0 (R46). -/
def Unreached (start : Mps) (n : Nat) : Prop := start.thresh = 0#16 ∨ n < start.thresh.toNat

theorem move_running (softstart : Half) (mode : Mode) (d : Bool) (thresh : Half) (m : Mps) :
    (m.move softstart mode d thresh).Running (m.move softstart mode d thresh) 0 := by
  refine ⟨rfl, rfl, rfl, ?_, rfl, (BitVec.add_zero _).symm⟩
  cases d <;> simp [move]

variable {start m : Mps} {n total : Nat}

theorem Unreached.of_succ (h : start.Unreached (n + 1)) : start.Unreached n := h.imp_right Nat.lt_of_succ_lt

theorem Running.advance_phase (h : m.Running start n) : m.advance.phase = start.phase + BitVec.ofNat 3 (n + 1) := by
  rw [Mps.advance_phase, h.phase, BitVec.ofNat_add, BitVec.add_assoc]

theorem Running.advance_steps (h : m.Running start n) : m.advance.steps.toNat = min (n + 1) 65535 := by
  rw [Mps.advance_steps, h.steps]
  omega

theorem Running.unforced (h : m.Running start n) (hn : start.Unreached (n + 1)) : m.advance.steps ≠ m.thresh := by
  intro e
  have hs := h.advance_steps
  rw [e, h.thresh] at hs
  rcases hn with hz | hlt
  · rw [hz, BitVec.toNat_ofNat] at hs
    omega
  · omega

theorem Running.turn (h : m.Running start n) (hn : start.Unreached (n + 1)) : m.turn.Running start (n + 1) := by
  have hf := h.unforced hn
  rw [turn_on h.ival]
  exact ⟨(congrArg Mps.mode (tick_unforced hf)).trans h.mode, m.tick_thresh.trans h.thresh,
    (congrArg Mps.done (tick_unforced hf)).trans h.done, tick_ival_ne_off hf h.ival,
    (congrArg BitVec.toNat m.tick_steps).trans h.advance_steps, m.tick_phase.trans h.advance_phase⟩

/-- The tick at the threshold forces the stop (R237). -/
theorem Running.turn_ends (h : m.Running start n) (hn : n + 1 = start.thresh.toNat) : m.turn.Ended start := by
  have hlt := start.thresh.isLt
  have hs : m.advance.steps = start.thresh := BitVec.eq_of_toNat_eq (by rw [h.advance_steps]; omega)
  rw [turn_on h.ival, tick_forced (hs.trans h.thresh.symm)]
  exact ⟨rfl, rfl, rfl, rfl, hs, h.advance_phase.trans (by rw [hn])⟩

theorem Running.iterate (h : m.Running start 0) (hn : start.Unreached n) : (Mps.turn^[n] m).Running start n := by
  induction n with
  | zero => exact h
  | succ n ih =>
    rw [Function.iterate_succ_apply']
    exact (ih hn.of_succ).turn hn

/-- From the threshold on, a maneuver has ended: the forced stop disables the motor timer. -/
theorem Running.iterate_ends (h : m.Running start 0) (ht : start.thresh ≠ 0#16) (hn : start.thresh.toNat ≤ n) :
    (Mps.turn^[n] m).Ended start := by
  have hpos : start.thresh.toNat ≠ 0 := fun e => ht (BitVec.eq_of_toNat_eq e)
  obtain ⟨k, hk⟩ := Nat.exists_eq_succ_of_ne_zero hpos
  have hend : (Mps.turn^[start.thresh.toNat] m).Ended start := by
    rw [hk, Function.iterate_succ_apply']
    exact (h.iterate (.inr (by omega))).turn_ends hk.symm
  rw [← Nat.sub_add_cancel hn, Function.iterate_add_apply, Function.iterate_fixed (turn_off hend.ival)]
  exact hend

/-- A stopped motor sequencer with the output stage off has the safe-idle outputs (R53). -/
theorem mout_safeIdle (hm : m.mode = .stop) (ho : m.oe = false) : m.mout = 0b0000011#7 := by
  have idle : latches .stop m.phase = 0b000011#6 := rfl
  rw [mout, hm, ho, idle]
  rfl

/-! ### The soft start (R225, R238) -/

/-- A deferred start of `total` slow ticks, after `n` motor ticks. -/
structure SoftStart (m : Mps) (total n : Nat) : Prop where
  cdown : m.cdown.toNat = total - n
  slow : n < total → m.ival = .slow ∧ m.oe = false
  fast : total ≤ n → m.ival = .fast ∧ m.oe = true

theorem move_softStart {softstart : Half} (hp : 1 ≤ softstart.toNat) (mode : Mode) (thresh : Half) (m : Mps) :
    (m.move softstart mode true thresh).SoftStart softstart.toNat 0 :=
  ⟨rfl, fun _ => ⟨rfl, rfl⟩, fun h => absurd hp (by omega)⟩

theorem SoftStart.tick (h : m.SoftStart total n) (hf : m.advance.steps ≠ m.thresh) :
    m.tick.SoftStart total (n + 1) := by
  have hd := h.cdown
  rcases tick_unforced_cases hf with ⟨hc, e⟩ | ⟨hc, e⟩ | ⟨hc, e⟩ <;> rw [e]
  · exact ⟨hd.trans (by omega), fun _ => h.slow (by omega), fun _ => h.fast (by omega)⟩
  · exact ⟨show 0 = total - (n + 1) by omega, fun _ => by omega, fun _ => ⟨rfl, rfl⟩⟩
  · exact ⟨show (m.cdown - 1#16).toNat = total - (n + 1) by bv_omega, fun _ => h.slow (by omega),
      fun _ => by omega⟩

/-- The countdown lasts through a run of ticks that does not reach the threshold. -/
theorem SoftStart.iterate (h : m.SoftStart total 0) (hr : m.Running start 0) (hn : start.Unreached n) :
    (Mps.turn^[n] m).SoftStart total n := by
  induction n with
  | zero => exact h
  | succ n ih =>
    have hrun := hr.iterate hn.of_succ
    rw [Function.iterate_succ_apply', turn_on hrun.ival]
    exact (ih hn.of_succ).tick (hrun.unforced hn)

end Mps

/-! ### The motor commands (R222 to R224) -/

theorem modeCodes_legal : ∀ p ∈ modeCodes, p.1 ≠ .stop → modeLegal p.2 = true := by decide

theorem modeLegal_reserved {mode : BitVec 4} (h : mode = 0#4 ∨ 9 ≤ mode.toNat) : modeLegal mode = false := by
  rcases h with rfl | h
  · rfl
  · simp [modeLegal, h]

theorem exec_motMove_reserved {mode : BitVec 4} (h : mode = 0#4 ∨ 9 ≤ mode.toNat) (d : Bool) (thresh : Half)
    (s : State) : exec (.motMove mode d thresh) s = .next s.raiseIllegal := by
  simp only [exec, execMotMove, modeLegal_reserved h, Bool.false_eq_true, if_false]

theorem exec_motRd {sel : BitVec 4} (h : sel.toNat ≤ 4) (s : State) :
    exec (.motRd sel) s = .next (s.respond (s.mps.read sel)) :=
  execMotRd_legal (decide_eq_true (Nat.lt_succ_of_le h)) s

theorem exec_motRd_reserved {sel : BitVec 4} (h : 5 ≤ sel.toNat) (s : State) :
    exec (.motRd sel) s = .next s.raiseIllegal := by
  have hl : motSelLegal sel = false := decide_eq_false (by omega)
  simp only [exec, execMotRd, hl, Bool.false_eq_true, if_false]

theorem Mode.code_mem_modeCodes (mode : Mode) : (mode, mode.code) ∈ modeCodes := by
  cases mode <;> decide

theorem Mps.statusWord_fields (m : Mps) :
    m.statusWord.extractLsb' 15 17 = 0#17 ∧ m.statusWord.getLsbD 14 = m.oe ∧
      m.statusWord.extractLsb' 12 2 = m.ival.code ∧ m.statusWord.getLsbD 11 = m.done ∧
      m.statusWord.extractLsb' 8 3 = m.phase ∧ m.statusWord.extractLsb' 4 4 = m.prev.code ∧
      m.statusWord.extractLsb' 0 4 = m.mode.code := by
  have whole : field 0 32 m.statusWord = 0#17 ++ BitVec.ofBool m.oe ++ m.ival.code ++ BitVec.ofBool m.done ++ m.phase ++
      m.prev.code ++ m.mode.code := field_whole m.statusWord
  rw [field_eq_append_iff 28 4, field_eq_append_iff 24 4, field_eq_append_iff 21 3, field_eq_append_iff 20 1,
    field_eq_append_iff 18 2, field_eq_append_iff 17 1, field_bit, field_bit, BitVec.ofBool_eq_iff_eq,
    BitVec.ofBool_eq_iff_eq] at whole
  obtain ⟨⟨⟨⟨⟨⟨hzero, hoe⟩, hival⟩, hdone⟩, hphase⟩, hprev⟩, hmode⟩ := whole
  exact ⟨hzero, hoe, hival, hdone, hphase, hprev, hmode⟩

end Sys2Proof.Machine

namespace Sys2Proof.Proofs

open Sys2Proof.Machine Sys2Proof.Claims

/-- Settles O28: the run makes one turn of the motor sequencer for each motor tick, and these run below the threshold
and end at it. -/
theorem maneuverEndsAfterExactlyThresholdTicks : Obligations.ManeuverEndsAfterExactlyThresholdTicks := by
  intro s p d thresh qs rest hp hm ht hs hq
  obtain ⟨t, hrun, htm⟩ := runFor_turns qs hq
    (s := (s.setMps (s.mps.move s.params.softstart p.1 d thresh)).respond 0#32) hs
  have hstart := s.mps.move_running s.params.softstart p.1 d thresh
  refine ⟨_, t, exec_motMove_mode hp hm d thresh s, hrun, fun hlt => ?_, fun hle => ?_⟩ <;> rw [htm]
  · have h := hstart.iterate (.inr hlt)
    have hlast := thresh.isLt
    exact ⟨h.mode, h.ival, h.done, h.steps.trans (by omega), h.phase⟩
  · have h := hstart.iterate_ends ht hle
    exact ⟨h.mode, h.ival, h.done, h.steps, h.phase, Mps.mout_safeIdle h.mode h.oe⟩

/-- Settles O29: as for O28, with the countdown's invariant along the turns. -/
theorem softStartTakesExactlySoftstartTicks : Obligations.SoftStartTakesExactlySoftstartTicks := by
  intro s p thresh qs rest hp hm hl hs hq hn
  obtain ⟨t, hrun, htm⟩ := runFor_turns qs hq
    (s := (s.setMps (s.mps.move s.params.softstart p.1 true thresh)).respond 0#32) hs
  have h := (Mps.move_softStart hl.softstart_pos p.1 thresh s.mps).iterate (s.mps.move_running _ _ _ _) hn
  refine ⟨_, t, exec_motMove_mode hp hm true thresh s, hrun, fun hlt => ?_, fun hle => ?_⟩ <;> rw [Mps.mout_oe, htm]
  · obtain ⟨hival, hoe⟩ := h.slow hlt
    exact ⟨hival, hoe, hoe, h.cdown⟩
  · obtain ⟨hival, hoe⟩ := h.fast hle
    exact ⟨hival, hoe, hoe, BitVec.eq_of_toNat_eq (h.cdown.trans (Nat.sub_eq_zero_of_le hle))⟩

/-- Settles O27: the tick at the threshold is forced, and the others go by the countdown. -/
theorem motorTickAdvancesStopsOrCountsDown : Obligations.MotorTickAdvancesStopsOrCountsDown := by
  intro s steps ha hi hsteps
  obtain rfl := satInc_eq_of_toNat hsteps
  rw [step_mtimer_on ha hi]
  refine ⟨fun he => ?_, fun hne hc => ?_, fun hne hc => ?_, fun hne hc => ?_⟩
  · rw [Mps.tick_forced he]
    rfl
  · rw [Mps.tick_countdown_runs hne hc]
    rfl
  · rw [Mps.tick_countdown_ends hne hc]
    rfl
  · rw [Mps.tick_idle hne hc]
    rfl

/-- Settles O23: a mode of `modeCodes` other than STOP is legal, and the move is R222's. -/
theorem motMoveStartsAManeuver : Obligations.MotMoveStartsAManeuver := by
  refine fun s thresh => ⟨fun p hp hm => ⟨fun d => ?_, exec_motMove_mode hp hm true thresh s,
    exec_motMove_mode hp hm false thresh s⟩, fun mode d h => exec_motMove_reserved h d thresh s⟩
  exact decode_ok_iff.mpr ⟨(modeLegal_eq_wellFormed p.2 d thresh).symm.trans (modeCodes_legal p hp hm), rfl⟩

/-- Settles O24: MOT_STOP halts the motor sequencer, which leaves the safe-idle outputs. -/
theorem motStopStopsAtOnce : Obligations.MotStopStopsAtOnce :=
  ⟨decode_ok_iff.mpr ⟨rfl, rfl⟩, fun _ => ⟨_, rfl, rfl, Mps.mout_safeIdle rfl rfl⟩⟩

/-- Settles O25: MOT_RD answers the word of its selector, and the fields of the status word are the registers. -/
theorem motRdReadsTheSelectedWord : Obligations.MotRdReadsTheSelectedWord := by
  intro s
  refine ⟨exec_motRd (by decide) s, exec_motRd (by decide) s,
    ⟨s.mps.statusWord, exec_motRd (sel := 2) (by decide) s, ?_⟩, exec_motRd (by decide) s, exec_motRd (by decide) s,
    fun sel => ⟨fun h => decode_ok_iff.mpr ⟨decide_eq_true h, rfl⟩, fun h => exec_motRd_reserved h s⟩⟩
  obtain ⟨hzero, hoe, hival, hdone, hphase, hprev, hmode⟩ := s.mps.statusWord_fields
  refine ⟨?_, ?_, hphase, hdone, ?_, hoe, hzero⟩
  · rw [hmode]
    exact s.mps.mode.code_mem_modeCodes
  · rw [hprev]
    exact s.mps.prev.code_mem_modeCodes
  · rw [hival]
    cases s.mps.ival <;> decide

end Sys2Proof.Proofs

namespace Sys2Proof.Machine

open Function

/-! ### The LFSR step as a map on the registers (R271) -/

theorem genBits_eq_iterate (n : Nat) (l : BitVec 15) : genBits n l = genBit^[n] l := by
  induction n generalizing l with
  | zero => rfl
  | succ n ih => exact ih (genBit l)

/-- Only the all-zero register steps to zero: it is the fixed point of R272. -/
theorem genBit_eq_zero_iff {l : BitVec 15} : genBit l = 0#15 ↔ l = 0#15 := by
  refine ⟨fun h => ?_, by rintro rfl; rfl⟩
  have low (i : Nat) (hi : i < 14) : l.getLsbD i = false := by
    rw [← genBit_succ_bit l i hi, h, BitVec.getLsbD_zero]
  have fresh := genBit_zero_bit l
  rw [h, BitVec.getLsbD_zero, low 13 (by decide), Bool.xor_false] at fresh
  apply BitVec.eq_of_getLsbD_eq
  intro i hi
  rw [BitVec.getLsbD_zero]
  obtain hi | rfl : i < 14 ∨ i = 14 := by omega
  · exact low i hi
  · exact fresh.symm

theorem genBits_ne_zero {l : BitVec 15} (h : l ≠ 0#15) (n : Nat) : genBits n l ≠ 0#15 := by
  induction n generalizing l with
  | zero => exact h
  | succ n ih => exact ih (genBit_eq_zero_iff.not.mpr h)

theorem genBit_injective : Injective genBit := by
  intro a b h
  have hx : genBit (a ^^^ b) = 0#15 := by rw [genBit_xor, h, BitVec.xor_self]
  exact BitVec.xor_eq_zero_iff.mp (genBit_eq_zero_iff.mp hx)

/-! ### The trinomial of the recurrence, `x^15 = x + 1`, and its powers of two (R271) -/

/-- An old bit is read `k` places further after `k` steps. -/
theorem genBits_bit_add (k i : Nat) (h : i + k < 15) (l : BitVec 15) :
    (genBits k l).getLsbD (i + k) = l.getLsbD i := by
  induction k generalizing i l with
  | zero => rfl
  | succ k ih =>
    rw [genBits, ← Nat.succ_add_eq_add_succ, ih (i + 1) (by omega), genBit_succ_bit l i (by omega)]

/-- Fifteen steps give the exclusive-or of the register and its next value: bit `j` is the fresh bit
of the step `15 - j`, formed from the bits that stand at `j` before the first step and after it. -/
theorem genBits_fifteen (l : BitVec 15) : genBits 15 l = genBit l ^^^ l := by
  apply BitVec.eq_of_getLsbD_eq
  intro j hj
  obtain ⟨k, hk⟩ : ∃ k, j + k = 14 := ⟨14 - j, by omega⟩
  have fresh : (genBits 15 l).getLsbD j = (genBits (k + 1) l).getLsbD 0 := by
    have e : genBits 15 l = genBits j (genBits (k + 1) l) := by
      rw [← genBits_add]
      exact congrArg (genBits · l) (by omega)
    simpa [e] using genBits_bit_add j 0 (by omega) (genBits (k + 1) l)
  have older : (genBits k l).getLsbD 14 = l.getLsbD j := by
    rw [← hk]
    exact genBits_bit_add k j (by omega) l
  have newer : (genBits k l).getLsbD 13 = (genBit l).getLsbD j := by
    cases k with
    | zero =>
      obtain rfl : j = 14 := hk
      exact (genBit_succ_bit l 13 (by decide)).symm
    | succ k =>
      rw [show 13 = j + k by omega]
      exact genBits_bit_add k j (by omega) (genBit l)
  rw [fresh, genBits_add, genBits, genBits, genBit_zero_bit, older, newer, BitVec.getLsbD_xor, Bool.xor_comm]

theorem genBits_comm (m n : Nat) (l : BitVec 15) : genBits m (genBits n l) = genBits n (genBits m l) := by
  rw [← genBits_add, Nat.add_comm, genBits_add]

theorem genBits_two_pow_succ (k : Nat) (l : BitVec 15) :
    genBits (2 ^ (k + 1)) l = genBits (2 ^ k) (genBits (2 ^ k) l) := by
  rw [pow_succ, mul_two, genBits_add]

theorem xor_cancel_middle (a b c : BitVec 15) : (a ^^^ b) ^^^ (b ^^^ c) = a ^^^ c := by
  rw [BitVec.xor_assoc, ← BitVec.xor_assoc b, BitVec.xor_self, BitVec.zero_xor]

/-- `x^16 = x^2 + x`, squared `k` times: squaring is additive, for the steps are linear over exclusive-or. -/
theorem genBits_two_pow_add_four (k : Nat) (l : BitVec 15) :
    genBits (2 ^ (k + 4)) l = genBits (2 ^ (k + 1)) l ^^^ genBits (2 ^ k) l := by
  induction k generalizing l with
  | zero => exact genBits_fifteen (genBit l)
  | succ k ih =>
    calc genBits (2 ^ (k + 4 + 1)) l
        = genBits (2 ^ (k + 4)) (genBits (2 ^ (k + 1)) l) ^^^ genBits (2 ^ (k + 4)) (genBits (2 ^ k) l) := by
          rw [genBits_two_pow_succ, ih l, genBits_xor]
      _ = (genBits (2 ^ (k + 1)) (genBits (2 ^ (k + 1)) l) ^^^ genBits (2 ^ (k + 1)) (genBits (2 ^ k) l)) ^^^
            (genBits (2 ^ (k + 1)) (genBits (2 ^ k) l) ^^^ genBits (2 ^ k) (genBits (2 ^ k) l)) := by
          rw [ih, ih, genBits_comm (2 ^ k) (2 ^ (k + 1))]
      _ = genBits (2 ^ (k + 1 + 1)) l ^^^ genBits (2 ^ (k + 1)) l := by
          rw [xor_cancel_middle, ← genBits_two_pow_succ, ← genBits_two_pow_succ]

/-- `x^256 = x^4 + x`, squared `k` times. -/
theorem genBits_two_pow_add_eight (k : Nat) (l : BitVec 15) :
    genBits (2 ^ (k + 8)) l = genBits (2 ^ (k + 2)) l ^^^ genBits (2 ^ k) l := by
  rw [genBits_two_pow_add_four (k + 4), genBits_two_pow_add_four (k + 1), genBits_two_pow_add_four k, xor_cancel_middle]

/-- `x^32768 = x`. -/
theorem genBits_two_pow_fifteen (l : BitVec 15) : genBits (2 ^ 15) l = genBit l := by
  calc genBits (2 ^ 15) l
      = genBits (2 ^ 9) l ^^^ genBits (2 ^ 7) l := genBits_two_pow_add_eight 7 l
    _ = (genBits (2 ^ 3) l ^^^ genBits (2 ^ 1) l) ^^^
          (genBits (2 ^ 1) l ^^^ genBits (2 ^ 0) l ^^^ genBits (2 ^ 3) l) := by
        rw [genBits_two_pow_add_eight 1, genBits_two_pow_add_four 3, genBits_two_pow_add_four 0]
    _ = genBits (2 ^ 0) l := by
        rw [BitVec.xor_assoc (genBits (2 ^ 1) l), xor_cancel_middle, BitVec.xor_comm (genBits (2 ^ 0) l),
          ← BitVec.xor_assoc, BitVec.xor_self, BitVec.zero_xor]

theorem genBits_eq_self_of_succ {n : Nat} {l : BitVec 15} (h : genBits (n + 1) l = genBit l) : genBits n l = l :=
  genBit_injective ((genBits_comm 1 n l).trans h)

theorem isPeriodicPt_genBit_iff {n : Nat} {l : BitVec 15} : IsPeriodicPt genBit n l ↔ genBits n l = l := by
  rw [genBits_eq_iterate]
  rfl

theorem isPeriodicPt_genBit (l : BitVec 15) : IsPeriodicPt genBit 32767 l := by
  have h : genBits (32767 + 1) l = genBit l := genBits_two_pow_fifteen l
  exact isPeriodicPt_genBit_iff.mpr (genBits_eq_self_of_succ (n := 32767) h)

/-! ### No shorter period: the orbit of the register 1

For each prime factor `p` of 32767 = 7 * 31 * 151, the register 1 after 32767 / p steps, a power of two of them at a
time. -/

theorem not_isPeriodicPt_4681 : ¬ IsPeriodicPt genBit 4681 1#15 := by
  have h12 : genBits (2 ^ 12) 1#15 = 0x0116#15 := by
    rw [genBits_two_pow_add_eight 4, genBits_two_pow_add_four 2, genBits_two_pow_add_four 0]
    decide
  have h9 : genBits (2 ^ 9) 0x0116#15 = 0x125E#15 := by
    rw [genBits_two_pow_add_eight 1]
    decide
  have h6 : genBits (2 ^ 6) 0x125E#15 = 0x7B8B#15 := by
    rw [genBits_two_pow_add_four 2]
    decide
  have h : genBits (2 ^ 12 + 2 ^ 9 + 2 ^ 6 + 9) 1#15 = 0x1632#15 := by
    rw [genBits_add, genBits_add, genBits_add, h12, h9, h6]
    decide
  rw [isPeriodicPt_genBit_iff, show 4681 = 2 ^ 12 + 2 ^ 9 + 2 ^ 6 + 9 by norm_num, h]
  decide

theorem not_isPeriodicPt_1057 : ¬ IsPeriodicPt genBit 1057 1#15 := by
  have h10 : genBits (2 ^ 10) 1#15 = 0x0016#15 := by
    rw [genBits_two_pow_add_eight 2, genBits_two_pow_add_four 0]
    decide
  have h5 : genBits (2 ^ 5) 0x0016#15 = 0x0138#15 := by
    rw [genBits_two_pow_add_four 1]
    decide
  have h : genBits (2 ^ 10 + 2 ^ 5 + 1) 1#15 = 0x0270#15 := by
    rw [genBits_add, genBits_add, h10, h5]
    decide
  rw [isPeriodicPt_genBit_iff, show 1057 = 2 ^ 10 + 2 ^ 5 + 1 by norm_num, h]
  decide

theorem not_isPeriodicPt_217 : ¬ IsPeriodicPt genBit 217 1#15 := by
  have h7 : genBits (2 ^ 7) 1#15 = 0x0106#15 := by
    rw [genBits_two_pow_add_four 3, genBits_two_pow_add_four 0]
    decide
  have h6 : genBits (2 ^ 6) 0x0106#15 = 0x1666#15 := by
    rw [genBits_two_pow_add_four 2]
    decide
  have h4 : genBits (2 ^ 4) 0x1666#15 = 0x7555#15 := by
    rw [genBits_two_pow_add_four 0]
    decide
  have h : genBits (2 ^ 7 + 2 ^ 6 + 2 ^ 4 + 9) 1#15 = 0x2A7F#15 := by
    rw [genBits_add, genBits_add, genBits_add, h7, h6, h4]
    decide
  rw [isPeriodicPt_genBit_iff, show 217 = 2 ^ 7 + 2 ^ 6 + 2 ^ 4 + 9 by norm_num, h]
  decide

/-- A period `n` is the least one when no `n / p` is a period, for the primes `p` that divide `n`. -/
theorem minimalPeriod_eq_of_prime_div {α : Type} {f : α → α} {x : α} {n : Nat} (hx : IsPeriodicPt f n x)
    (hd : ∀ p, p.Prime → p ∣ n → ¬ IsPeriodicPt f (n / p) x) : minimalPeriod f x = n := by
  obtain ⟨a, ha⟩ := hx.minimalPeriod_dvd
  by_contra h
  have ha1 : a ≠ 1 := fun e => h (by rw [ha, e, Nat.mul_one])
  have hp : a.minFac ∣ n := ha ▸ (Nat.minFac_dvd a).mul_left _
  refine hd _ (Nat.minFac_prime ha1) hp (isPeriodicPt_iff_minimalPeriod_dvd.mpr ?_)
  rw [Nat.dvd_div_iff_mul_dvd hp, Nat.mul_comm]
  exact (Nat.mul_dvd_mul_left _ (Nat.minFac_dvd a)).trans ha.symm.dvd

theorem minimalPeriod_genBit_one : minimalPeriod genBit 1#15 = 32767 := by
  refine minimalPeriod_eq_of_prime_div (isPeriodicPt_genBit 1#15) fun p hp hdvd => ?_
  rw [show 32767 = 7 * (31 * 151) by norm_num, hp.dvd_mul, hp.dvd_mul] at hdvd
  rcases hdvd with h | h | h
  · obtain rfl := (Nat.prime_dvd_prime_iff_eq hp (by norm_num)).mp h
    exact not_isPeriodicPt_4681
  · obtain rfl := (Nat.prime_dvd_prime_iff_eq hp (by norm_num)).mp h
    exact not_isPeriodicPt_1057
  · obtain rfl := (Nat.prime_dvd_prime_iff_eq hp (by norm_num)).mp h
    exact not_isPeriodicPt_217

/-- The orbit of the register 1 has 32767 registers, none of them zero: it is all of the nonzero ones. -/
theorem exists_genBits_one_eq {l : BitVec 15} (h : l ≠ 0#15) : ∃ n, genBits n 1#15 = l := by
  have hmaps : Set.MapsTo (genBits · 1#15) (Finset.range 32767) (Finset.univ.erase 0#15) := fun n _ => by
    simpa using genBits_ne_zero (l := 1#15) (by decide) n
  have hinj : Set.InjOn (genBits · 1#15) (Finset.range 32767) := by
    intro m hm n hn e
    rw [Finset.mem_coe, Finset.mem_range, ← minimalPeriod_genBit_one] at hm hn
    refine (iterate_eq_iterate_iff_of_lt_minimalPeriod hm hn).mp ?_
    rwa [← genBits_eq_iterate, ← genBits_eq_iterate]
  have hcard : (Finset.univ.erase 0#15).card ≤ (Finset.range 32767).card := by
    rw [Finset.card_erase_of_mem (Finset.mem_univ _), Finset.card_univ, ← FinEnum.card_eq_fintypeCard,
      FinEnum.card_bitVec, Finset.card_range]
    norm_num
  obtain ⟨n, -, hn⟩ := Finset.surjOn_of_injOn_of_card_le _ hmaps hinj hcard (a := l) (by simpa using h)
  exact ⟨n, hn⟩

/-- R278: the nonzero registers are one cycle, of length 32767. -/
theorem genBits_eq_self_iff {l : BitVec 15} (h : l ≠ 0#15) (n : Nat) : genBits n l = l ↔ 32767 ∣ n := by
  obtain ⟨m, rfl⟩ := exists_genBits_one_eq h
  have hper : (1#15) ∈ periodicPts genBit := mk_mem_periodicPts (by norm_num) (isPeriodicPt_genBit 1#15)
  rw [← isPeriodicPt_genBit_iff, isPeriodicPt_iff_minimalPeriod_dvd, genBits_eq_iterate m,
    minimalPeriod_apply_iterate hper, minimalPeriod_genBit_one]

end Sys2Proof.Machine

namespace Sys2Proof.Machine

open Sys2Proof.Claims

/-! ### The steps of a request, as numbers (R271) -/

theorem genBit_toNat_eq_lfsrStep (l : BitVec 15) : (genBit l).toNat = lfsrStep l.toNat := by
  rw [genBit_toNat, lfsrStep, BitVec.testBit_toNat, BitVec.testBit_toNat]
  cases l.getLsbD 14 <;> cases l.getLsbD 13 <;> rfl

theorem genBits_toNat (n : Nat) (l : BitVec 15) : (genBits n l).toNat = lfsrStep^[n] l.toNat := by
  induction n generalizing l with
  | zero => rfl
  | succ n ih => rw [genBits, ih, genBit_toNat_eq_lfsrStep, Function.iterate_succ_apply]

theorem freshBits_direction {kind : BitVec 2} (h : kind.toNat = 0) : freshBits kind = 1 := by simp [freshBits, h]

theorem freshBits_move {kind : BitVec 2} (h : kind.toNat = 1) : freshBits kind = 3 := by simp [freshBits, h]

theorem freshBits_full {kind : BitVec 2} (h : 2 ≤ kind.toNat) : freshBits kind = 15 := by
  unfold freshBits
  split
  · omega
  · omega
  · rfl

/-! ### Self-seeding (R272) -/

section

variable {fallback l : BitVec 15} {frc : Half}

theorem reseed_zero (fallback : BitVec 15) (frc : Half) : reseed fallback frc 0#15 =
    if frc.extractLsb' 0 15 = 0#15 then fallback else frc.extractLsb' 0 15 := if_pos rfl

theorem counter_toNat (frc : Half) : (frc.extractLsb' 0 15).toNat = frc.toNat % 32768 := by
  simp

theorem counter_eq_zero_iff : frc.extractLsb' 0 15 = 0#15 ↔ frc.toNat % 32768 = 0 := by
  rw [← counter_toNat]
  exact BitVec.toNat_inj.symm

theorem reseed_from_counter (h : frc.toNat % 32768 ≠ 0) :
    (reseed fallback frc 0#15).toNat = frc.toNat % 32768 := by
  rw [reseed_zero, if_neg (counter_eq_zero_iff.not.mpr h), counter_toNat]

theorem reseed_from_fallback (h : frc.toNat % 32768 = 0) : reseed fallback frc 0#15 = fallback := by
  rw [reseed_zero, if_pos (counter_eq_zero_iff.mpr h)]

theorem reseed_ne_zero (hf : fallback ≠ 0#15) (frc : Half) (l : BitVec 15) : reseed fallback frc l ≠ 0#15 := by
  by_cases hl : l = 0#15
  · subst hl
    rw [reseed_zero]
    split
    · exact hf
    · assumption
  · rwa [reseed_nonzero hl]

/-- Self-seeding reads the counter only for a zero register, and not its bit 15. -/
theorem reseed_congr {frc' : Half} (h : l ≠ 0#15 ∨ frc.toNat % 32768 = frc'.toNat % 32768) :
    reseed fallback frc l = reseed fallback frc' l := by
  by_cases hl : l = 0#15
  · have he : frc.extractLsb' 0 15 = frc'.extractLsb' 0 15 := by
      apply BitVec.eq_of_toNat_eq
      rw [counter_toNat, counter_toNat]
      exact h.resolve_left (not_not_intro hl)
    rw [hl, reseed_zero, reseed_zero, he]
  · rw [reseed_nonzero hl, reseed_nonzero hl]

end

/-! ### The value of a request (R273) -/

theorem zext_toNat {w : Nat} (h : w ≤ 32) (v : BitVec w) : (zext v).toNat = v.toNat :=
  BitVec.toNat_setWidth_of_le h

section

variable {kind : BitVec 2}

theorem prbsValue_direction (h : kind.toNat = 0) (floor : TimeFloor) (l : BitVec 15) :
    (prbsValue floor kind l).toNat = l.toNat % 2 := by
  simp [prbsValue, h, zext_toNat]

theorem prbsValue_move (h : kind.toNat = 1) (floor : TimeFloor) (l : BitVec 15) :
    (prbsValue floor kind l).toNat = l.toNat % 4 := by
  simp [prbsValue, h, zext_toNat]

theorem prbsValue_degree (h : kind.toNat = 2) (floor : TimeFloor) (l : BitVec 15) :
    (prbsValue floor kind l).toNat = (degreeValue l).toNat := by
  simp [prbsValue, h, zext_toNat]

theorem prbsValue_time (h : kind.toNat = 3) (floor : TimeFloor) (l : BitVec 15) :
    (prbsValue floor kind l).toNat = (timeValue floor l).toNat := by
  simp [prbsValue, h, zext_toNat]

end

theorem degreeValue_toNat (l : BitVec 15) : (degreeValue l).toNat =
    if l.toNat.testBit 8 then l.toNat % 512 else l.toNat % 512 ||| 0x0C0 := by
  rw [BitVec.testBit_toNat]
  simp [degreeValue, apply_ite BitVec.toNat]

theorem timeFloorBit_lt (floor : TimeFloor) : timeFloorBit floor < 13 := by
  cases floor <;> decide

theorem timeValue_toNat (floor : TimeFloor) (l : BitVec 15) : (timeValue floor l).toNat =
    if l.toNat.testBit (timeFloorBit floor) then l.toNat % 8192 else l.toNat % 8192 ||| 0x600 := by
  rw [BitVec.testBit_toNat]
  simp [timeValue, apply_ite BitVec.toNat, timeFloorBit_lt]

theorem eq_timeFloorBit {floor : TimeFloor} {bit : Nat}
    (h : (floor, bit) ∈ [(TimeFloor.bit11, 11), (.bit12, 12)]) : bit = timeFloorBit floor := by
  cases floor <;> simpa [timeFloorBit] using h

/-- A floored field is at least the pattern of the floor: its condition bit alone exceeds the pattern, or the pattern is
in it (R279). -/
theorem pattern_le_floored {w b : Nat} {pattern : BitVec w} (h : pattern.toNat ≤ 2 ^ b) (v : BitVec w) :
    pattern.toNat ≤ (if v.getLsbD b then v else v ||| pattern).toNat := by
  split
  · next hb => exact h.trans (Nat.ge_two_pow_of_testBit (by rwa [BitVec.testBit_toNat]))
  · rw [BitVec.toNat_or]
    exact Nat.right_le_or

theorem degreeValue_range (l : BitVec 15) : 192 ≤ (degreeValue l).toNat ∧ (degreeValue l).toNat ≤ 511 :=
  ⟨pattern_le_floored (pattern := 0x0C0#9) (by decide) _, Nat.le_of_lt_succ (degreeValue l).isLt⟩

theorem timeValue_range (floor : TimeFloor) (l : BitVec 15) :
    1536 ≤ (timeValue floor l).toNat ∧ (timeValue floor l).toNat ≤ 8191 := by
  have hbit : (0x600#13).toNat ≤ 2 ^ timeFloorBit floor := by cases floor <;> decide
  exact ⟨pattern_le_floored hbit _, Nat.le_of_lt_succ (timeValue floor l).isLt⟩

/-! ### PRBS_GEN (R274) -/

/-- PRG.L after PRBS_GEN: the register, self-seeded and stepped. -/
def State.generated (kind : BitVec 2) (s : State) : BitVec 15 :=
  genBits (freshBits kind) (reseed s.params.fallback s.frc s.prg)

theorem exec_prbsGen (kind : BitVec 2) (s : State) : exec (.prbsGen kind) s = .next
    ((s.setPrg (s.generated kind)).respond (prbsValue s.params.timeFloor kind (s.generated kind))) := rfl

theorem State.generated_direction {s : State} (h : s.prg ≠ 0#15) : s.generated 0 = genBit s.prg :=
  congrArg genBit (reseed_nonzero h _ _)

/-- Single-step requests from a nonzero register go on and only step it: none of them finds it zero. -/
theorem runAll_prbsGen_direction (n : Nat) {s : State} (h : s.prg ≠ 0#15) :
    ∃ t, runAll (List.replicate n (.prbsGen 0)) s = .next t ∧ t.prg = genBits n s.prg := by
  induction n generalizing s with
  | zero => exact ⟨s, rfl, rfl⟩
  | succ n ih =>
    have hgen := State.generated_direction h
    have hne : s.generated 0 ≠ 0#15 := hgen ▸ genBits_ne_zero h 1
    obtain ⟨t, ht, hp⟩ :=
      ih (s := (s.setPrg (s.generated 0)).respond (prbsValue s.params.timeFloor 0 (s.generated 0))) hne
    refine ⟨t, ?_, ?_⟩
    · simp only [List.replicate_succ, runAll, exec_prbsGen, ht]
    · rw [hp, State.respond_prg, State.setPrg_prg, hgen, genBits]

/-! ### Who writes PRG.L (R280) -/

@[simp] theorem State.debounceTick_prg (s : State) : s.debounceTick.prg = s.prg :=
  (congrArg State.prg s.debounceTick_eq :)

/-- Only PRBS_GEN and PRBS_SEED write PRG.L. -/
theorem Effect.prg {s t : State} {i : Instr} (he : Effect s i t) :
    t.prg = s.prg ∨ (∃ kind, i = .prbsGen kind) ∨ ∃ seed, i = .prbsSeed seed := by
  cases he with
  | generates kind _ => exact .inr (.inl ⟨kind, rfl⟩)
  | seeds seed => exact .inr (.inr ⟨seed, rfl⟩)
  | _ => exact .inl rfl

end Sys2Proof.Machine

namespace Sys2Proof.Proofs

open Sys2Proof.Machine Sys2Proof.Claims

/-- Settles O46: single-step requests are the steps of the LFSR, whose nonzero registers are one cycle. -/
theorem prbsPeriodIs32767 : Obligations.PrbsPeriodIs32767 := by
  intro s n h
  obtain ⟨t, ht, hp⟩ := runAll_prbsGen_direction n h
  exact ⟨t, ht, by rw [hp, genBits_eq_self_iff h]⟩

/-- Settles O43: the register is `genBits` of the self-seeded one, and the answer its `prbsValue`. -/
theorem prbsGenStepsAndAnswers : Obligations.PrbsGenStepsAndAnswers := by
  intro s kind
  refine ⟨_, exec_prbsGen kind s, rfl, ⟨(reseed s.params.fallback s.frc s.prg).toNat, freshBits kind,
    fun h => ?_, fun h hc => ?_, fun h hc => ?_, freshBits_direction, freshBits_move, freshBits_full,
    genBits_toNat _ _⟩, fun h => prbsValue_direction h _ _, fun h => prbsValue_move h _ _, fun h hb => ?_,
    fun h hb => ?_, fun bit hmem h => ?_⟩
  · rw [reseed_nonzero h]
  · rw [h, reseed_from_counter hc]
  · rw [h, reseed_from_fallback hc]
  · exact (prbsValue_degree h _ _).trans ((degreeValue_toNat _).trans (if_pos hb))
  · exact (prbsValue_degree h _ _).trans ((degreeValue_toNat _).trans (if_neg (Bool.eq_false_iff.mp hb)))
  · obtain rfl := eq_timeFloorBit hmem
    have hv := (prbsValue_time h s.params.timeFloor (s.generated kind)).trans (timeValue_toNat _ _)
    exact ⟨fun hb => hv.trans (if_pos hb), fun hb => hv.trans (if_neg (Bool.eq_false_iff.mp hb))⟩

/-- Settles O44: the unfloored values are remainders, and the floored ones are at least their pattern. -/
theorem prbsValuesStayInTheirRanges : Obligations.PrbsValuesStayInTheirRanges := by
  intro s kind
  refine ⟨_, exec_prbsGen kind s, fun h => ?_, fun h => ?_, fun h => ?_, fun h => ?_⟩ <;> rw [State.respond_resp]
  · rw [prbsValue_direction h]
    omega
  · rw [prbsValue_move h]
    omega
  · rw [prbsValue_degree h]
    exact degreeValue_range _
  · rw [prbsValue_time h]
    exact timeValue_range _ _

/-- Settles O45: a legal fallback makes the self-seeded register nonzero, and the steps keep it nonzero. -/
theorem prbsGenLeavesTheRegisterNonzero : Obligations.PrbsGenLeavesTheRegisterNonzero :=
  fun s kind h => ⟨_, exec_prbsGen kind s, genBits_ne_zero (reseed_ne_zero h.fallback_ne s.frc s.prg) _⟩

/-- Settles O48: of the moves only a command's effect and the reset reach PRG.L. -/
theorem onlyPrbsCommandsChangeTheRegister : Obligations.OnlyPrbsCommandsChangeTheRegister := by
  intro s t h hne
  cases step_move h with
  | passes _ _ | refuses _ _ | ticksMotor _ _ => exact absurd rfl hne
  | ticksDebounce _ => exact absurd s.takeTurn.debounceTick_prg hne
  | runs hw hd he => exact .inr ⟨_, _, hw, hd, he.prg.resolve_left hne⟩
  | resets ha => exact .inl ha

/-- Settles O49: the counter is read by the self-seeding alone. -/
theorem prbsGenReadsOnlyRegisterAndCounter : Obligations.PrbsGenReadsOnlyRegisterAndCounter := by
  intro s₁ s₂ kind hprg hpars h
  have hgen : s₁.generated kind = s₂.generated kind := by
    rw [State.generated, State.generated, ← hprg, ← hpars, reseed_congr h]
  refine ⟨_, _, exec_prbsGen kind s₁, exec_prbsGen kind s₂, hgen, ?_⟩
  rw [State.respond_resp, State.respond_resp, hgen, hpars]

/-- Settles O47: the words are those of `encode`, and each command is its one write. -/
theorem prbsSeedLoadsAndPrbsRdReads : Obligations.PrbsSeedLoadsAndPrbsRdReads :=
  fun _ _ => ⟨decode_ok_iff.mpr ⟨rfl, rfl⟩, decode_ok_iff.mpr ⟨rfl, rfl⟩, rfl, rfl⟩

end Sys2Proof.Proofs

namespace Sys2Proof

/-! ### Block commands with a body (R103, R107) -/

/-- A command of format Z with a body other than 0. -/
theorem decode_formatZ_reserved {o : Opcode} {i : Instr} (ho : decodeBody o = formatZ i) {body : BitVec 24}
    (hb : body ≠ 0#24) : decode (o.code ++ body) = .error .reservedBits := by
  rw [decode_of_opField (opField_word o.code body), ho, formatZ, body_word, if_neg hb]

/-- The OP values 0 to 2 are those of the block commands, which are of format Z. -/
theorem formatZ_of_code_le_two {op : BitVec 8} (h : op.toNat ≤ 2) :
    ∃ (o : Opcode) (i : Instr), o.code = op ∧ decodeBody o = formatZ i := by
  obtain h0 | h1 | h2 : op = 0x00#8 ∨ op = 0x01#8 ∨ op = 0x02#8 := by bv_omega
  · exact ⟨.nop, .nop, h0.symm, rfl⟩
  · exact ⟨.status, .status, h1.symm, rfl⟩
  · exact ⟨.clrerr, .clrerr, h2.symm, rfl⟩

end Sys2Proof

namespace Sys2Proof.Machine

theorem zext_ofBool (b : Bool) : zext (BitVec.ofBool b) = if b then 1#32 else 0#32 := by
  cases b <;> rfl

/-- STATUS answers ERR and leaves it (R301). -/
theorem exec_status (s : State) : exec .status s = .next (s.respond (if s.err then 1#32 else 0#32)) := by
  rw [exec, execStatus, zext_ofBool]

end Sys2Proof.Machine

namespace Sys2Proof.Proofs

open Sys2Proof.Machine Sys2Proof.Claims

/-- Settles O10: the three words are those of `encode`, the other bodies have reserved bits set, and each command is its
one response, after the clearing of ERR for CLRERR. -/
theorem blockCommandsHaveExactlyTheirEffect : Obligations.BlockCommandsHaveExactlyTheirEffect := by
  refine ⟨⟨decode_ok_iff.mpr ⟨rfl, rfl⟩, decode_ok_iff.mpr ⟨rfl, rfl⟩, decode_ok_iff.mpr ⟨rfl, rfl⟩⟩,
    fun op body hop hbody => ?_, fun s => ⟨rfl, exec_status s, rfl⟩⟩
  obtain ⟨o, i, rfl, hz⟩ := formatZ_of_code_le_two hop
  exact decode_formatZ_reserved hz hbody

end Sys2Proof.Proofs

namespace Sys2Proof.Machine

open Sys2Proof.Claims

/-! ### A refused word (R311) -/

theorem State.issue_error {w : Word} {e : Reject} (h : decode w = .error e) (s : State) :
    s.issue w = .next s.raiseIllegal := by
  simp only [State.issue, h]

/-- The turn is taken and the head of the HOST's queue is gone, before the word is issued. -/
theorem dropWrite_takeTurn {s : State} {c : HostWrite} {rest : List HostWrite} (h : s.cmds = c :: rest) :
    s.takeTurn.dropWrite = { atTurn s with cmds := rest } := by
  rw [State.dropWrite, State.takeTurn_cmds, h, takeTurn_eq_atTurn, List.tail_cons]

/-- The model's Illegal path writes ERR and RESP, and no other register. -/
theorem raiseIllegal_eq_illegal (s : State) : s.raiseIllegal = illegal s := rfl

end Sys2Proof.Machine

namespace Sys2Proof.Proofs

open Sys2Proof.Machine Sys2Proof.Claims

/-- Settles O4: a word of the HOST's turn leaves the queue and is issued, and issuing a refused one is the Illegal path. -/
theorem illegalWordSetsErrAndNothingElse : Obligations.IllegalWordSetsErrAndNothingElse := by
  intro s w rest e ha hh hc hd
  rw [step_host_word ha hh hc, State.issue_error hd, dropWrite_takeTurn hc, raiseIllegal_eq_illegal]

end Sys2Proof.Proofs

namespace Sys2Proof.Machine

open Sys2Proof.Claims

/-! ### A module's first updates after reset (R344) -/

theorem Sign.abs_toInt_le_one (g : Sign) : |g.toInt| ≤ 1 := by
  cases g <;> decide

/-- While the five oldest signs are zero, the five others of the older half do not reach the threshold (R144, R146). -/
theorem abs_older_le_five {g : Vector Sign 20} (h : ∀ (i : Nat) (hi : i < 20), 15 ≤ i → g[i] = .zero) :
    |older g| ≤ 5 := by
  have bound (a : Fin 10) : |(g[10 + a.val]).toInt| ≤ if a.val < 5 then 1 else 0 := by
    split
    · exact Sign.abs_toInt_le_one _
    · rw [h (10 + a.val) _ (by omega)]
      decide
  calc |older g| ≤ ∑ a : Fin 10, |(g[10 + a.val]).toInt| := Finset.abs_sum_le_sum_abs _ _
    _ ≤ ∑ a : Fin 10, if a.val < 5 then 1 else 0 := Finset.sum_le_sum fun a _ => bound a
    _ = 5 := by decide

namespace FdeModule

/-- A record that has taken `n` samples since reset, none of which confirmed anything: the signs of age `n` and older
are still those of the reset. -/
structure Fresh (n : Nat) (f : FdeModule) : Prop where
  idle : f.idle.toNat = n
  log0 : f.log0 = ⟨0#16, 0#8⟩
  log1 : f.log1 = ⟨0#16, 0#8⟩
  result : f.result = 0#16
  grads : ∀ (i : Nat) (hi : i < 20), n ≤ i → f.grads[i] = .zero

theorem reset_fresh : FdeModule.reset.Fresh 0 :=
  ⟨rfl, rfl, rfl, rfl, fun _ hi _ => Vector.getElem_replicate hi⟩

section

variable {rot : Bool} {steps x : Half} {n : Nat} {f : FdeModule}

/-- An update moves the zero signs one age up. -/
theorem Fresh.update_grads (h : f.Fresh n) (rot : Bool) (steps x : Half) (i : Nat) (hi : i < 20) (hn : n + 1 ≤ i) :
    (f.update rot steps x).grads[i] = .zero := by
  obtain ⟨j, rfl⟩ : ∃ j, i = j + 1 := ⟨i - 1, by omega⟩
  simp only [FdeModule.update_grads, shiftIn_succ _ f.grads j hi]
  exact h.grads j _ (by omega)

/-- Up to the fifteenth, an update has at most five signs in the older half. -/
theorem Fresh.not_confirms (h : f.Fresh n) (hn : n + 1 ≤ 15) : ¬ Confirms f (f.update rot steps x) := by
  have hb : |older (f.update rot steps x).grads| ≤ 5 :=
    abs_older_le_five fun i hi h15 => h.update_grads rot steps x i hi (by omega)
  obtain ⟨hlo, hhi⟩ := abs_le.mp hb
  rintro ⟨-, ⟨h5, -⟩ | ⟨h5, -⟩⟩ <;> omega

theorem Fresh.update (h : f.Fresh n) (hn : n + 1 ≤ 15) : (f.update rot steps x).Fresh (n + 1) := by
  have hc := h.not_confirms (rot := rot) (steps := steps) (x := x) hn
  have hi : (f.update rot steps x).idle.toNat = n + 1 := by
    rw [update_idle_of_not_confirms hc, h.idle]
    omega
  have ht : timeoutDue rot steps (f.update rot steps x).idle = false := by
    rw [timeoutDue, hi, Config.timeout, decide_eq_false (by omega), Bool.false_and]
  obtain ⟨h0, h1⟩ := update_log_of_not_confirms hc ht
  refine ⟨hi, h0.trans h.log0, h1.trans h.log1, ?_, h.update_grads rot steps x⟩
  cases rot with
  | false => rw [update_result_collision rfl ht, h0, h1, h.log0, h.log1, collisionResult_clear]
  | true => rw [update_result_rotation rfl ht, if_neg (mt (confirms_update_iff _ _ _ _).mpr hc), h.result]

theorem Fresh.updateAll (xs : List Half) (h : f.Fresh n) (hn : n + xs.length ≤ 15) :
    (f.updateAll rot steps xs).Fresh (n + xs.length) := by
  induction xs generalizing n f with
  | nil => exact h
  | cons x xs ih =>
    rw [List.length_cons] at hn ⊢
    have rest := ih (h.update (rot := rot) (steps := steps) (x := x) (by omega)) (by omega)
    rwa [Nat.add_assoc, Nat.add_comm 1] at rest

theorem update_idle_le : (f.update rot steps x).idle.toNat ≤ f.idle.toNat + 1 := by
  rw [update_idle]
  split
  · exact Nat.zero_le _
  · exact (satInc_toNat f.idle).trans_le (Nat.min_le_left _ _)

/-- A stream too short for the timeout does not read MPS.STEPS (R150). -/
theorem updateAll_below_timeout (steps' : Half) (xs : List Half) (f : FdeModule) (h : f.idle.toNat + xs.length ≤ 41) :
    f.updateAll rot steps xs = f.updateAll rot steps' xs := by
  induction xs generalizing f with
  | nil => rfl
  | cons x xs ih =>
    rw [List.length_cons] at h
    have hle := update_idle_le (rot := rot) (steps := steps') (x := x) (f := f)
    calc f.updateAll rot steps (x :: xs) = (f.update rot steps x).updateAll rot steps xs := rfl
      _ = (f.update rot steps' x).updateAll rot steps xs := by
        rw [update_below_timeout rot steps x f steps' (by omega)]
      _ = (f.update rot steps' x).updateAll rot steps' xs := ih _ (by omega)

end

/-- Sixteen samples with a peak: six rise, six fall, and the level stays. -/
def firstPeak : List Half := [1, 2, 3, 4, 5, 6, 5, 4, 3, 2, 1, 0, 0, 0, 0, 0]

theorem updateAll_firstPeak (rot : Bool) (steps : Half) :
    (FdeModule.reset.updateAll rot steps firstPeak).idle = 0#8 ∧
      (FdeModule.reset.updateAll rot steps firstPeak).log1.age = 15#8 := by
  rw [updateAll_below_timeout 0#16 firstPeak FdeModule.reset (by decide)]
  revert rot
  decide +kernel

end FdeModule

end Sys2Proof.Machine

namespace Sys2Proof.Proofs

open Sys2Proof.Machine Sys2Proof.Claims

/-- Settles O20: up to fifteen samples the older half holds too few signs; a peak of six rising and six falling samples
is confirmed by the sixteenth. -/
theorem sixteenthUpdateIsTheFirstToConfirm : Obligations.SixteenthUpdateIsTheFirstToConfirm := by
  intro s k hk
  refine ⟨fun xs hl => ?_, FdeModule.firstPeak, rfl, ?_⟩
  · obtain ⟨t, ht, hf⟩ := runAll_fdeUpd k xs s
    have fresh := FdeModule.reset_fresh.updateAll (rot := isRotation k) (steps := s.mps.steps) xs (by omega)
    rw [Nat.zero_add, ← hk, ← hf] at fresh
    exact ⟨t, ht, fresh.idle, fresh.log0, fresh.log1, fresh.result⟩
  · obtain ⟨t, ht, hf⟩ := runAll_fdeUpd k FdeModule.firstPeak s
    rw [hk] at hf
    exact ⟨t, ht, hf ▸ FdeModule.updateAll_firstPeak (isRotation k) s.mps.steps⟩

end Sys2Proof.Proofs

namespace Sys2Proof.Machine

open Sys2Proof.Claims

/-! ### The end of a hold (R352) -/

/-- A debounce tick on a low pin, or the one that completes the window, frees the port (R189). -/
theorem step_releases {p : BitVec 4} {n : Nat} {s : State} {q : Turn} {qs : List Turn} (h : s.Holding p n)
    (hs : s.script = q :: qs) (ha : q.agent = .dbtimer) (hn : n < s.params.blkWindow.toNat)
    (hq : q.din.getLsbD p.toNat = true → s.params.blkWindow.toNat ≤ n + 1) :
    ∃ t, step s = .next t ∧ t.held = false := by
  have hturn : s.nextTurn.agent = .dbtimer := (congrArg Turn.agent (State.nextTurn_scripted hs)).trans ha
  refine ⟨_, step_dbtimer_owned hturn h.not_free, ?_⟩
  have hpin := h.sample_takeTurn hs
  cases hl : q.din.getLsbD p.toNat with
  | false => rw [State.debounceTick_low (s := s.takeTurn) h.own (hpin.trans hl), State.completeBlocking_held]
  | true =>
    have hlt := s.params.blkWindow.isLt
    have hc : s.dbu.count.dbt.toNat = n + 1 := Dbu.count_dbt h.dbt (by omega)
    rw [State.debounceTick_elapsed (s := s.takeTurn) h.own (hpin.trans hl) ((hq hl).trans hc.ge),
      State.completeBlocking_held]

/-- Turns without a reset that bring as many debounce ticks as the window has left end the hold. -/
theorem runFor_releases {p : BitVec 4} (qs : List Turn) (hr : NoReset qs) {n : Nat} {s : State} {rest : List Turn}
    (h : s.Holding p n) (hs : s.script = qs ++ rest) (hn : n < s.params.blkWindow.toNat)
    (hw : s.params.blkWindow.toNat ≤ n + countOf .dbtimer qs) :
    ∃ m t, m ≤ qs.length ∧ runFor m s = .next t ∧ t.held = false := by
  induction qs generalizing n s with
  | nil =>
    have hc : countOf .dbtimer [] = 0 := rfl
    omega
  | cons q qs ih =>
    rw [countOf_cons] at hw
    by_cases hq : q.agent = .dbtimer → q.din.getLsbD p.toNat = true ∧ n + 1 < s.params.blkWindow.toNat
    · have hn' : n + (if q.agent = .dbtimer then 1 else 0) < s.params.blkWindow.toNat := by
        split
        · exact (hq ‹_›).2
        · exact hn
      obtain ⟨u, hu, hus, hup, -, huh⟩ := step_holding h hs (hr q List.mem_cons_self) hq
      obtain ⟨m, t, hm, ht, hf⟩ := ih (fun r hm => hr r (List.mem_cons_of_mem q hm)) huh hus
        (by rw [hup]; exact hn') (by rw [hup]; omega)
      exact ⟨m + 1, t, Nat.succ_le_succ hm, by simp only [runFor, hu, ht], hf⟩
    · obtain ⟨ha, hl⟩ := Classical.not_imp.mp hq
      obtain ⟨t, ht, hf⟩ := step_releases h hs ha hn fun hp => Nat.le_of_not_lt fun hlt => hl ⟨hp, hlt⟩
      exact ⟨1, t, Nat.succ_le_succ (Nat.zero_le _), by simp only [runFor, ht], hf⟩

end Sys2Proof.Machine

namespace Sys2Proof.Proofs

open Sys2Proof.Machine Sys2Proof.Claims

/-- Settles O40: by the invariant a held port is a blocking call inside its window, and BLK_WINDOW ticks use that up. -/
theorem holdIsBounded : Obligations.HoldIsBounded := by
  intro s ts rest hi hh hs hr hc
  have own := hi.blocking.mpr hh
  exact runFor_releases ts hr ⟨hh, own, rfl, rfl⟩ hs (hi.window own) (by omega)

end Sys2Proof.Proofs

namespace Sys2Proof.Machine

open Sys2Proof.Claims

/-! ### The state after reset (R340) -/

theorem State.externalReset_module (k : Fin 8) (s : State) : s.externalReset.fde[k] = FdeModule.reset :=
  Vector.getElem_replicate k.isLt

theorem State.externalReset_atReset (s : State) : AtReset s.externalReset := by
  refine ⟨rfl, rfl, fun k => ?_, rfl, Mps.mout_safeIdle rfl rfl, rfl, rfl, rfl⟩
  rw [State.externalReset_module]
  exact ⟨fun a => Vector.getElem_replicate a.isLt, fun a => Vector.getElem_replicate a.isLt, rfl, rfl, rfl, rfl⟩

/-- The reset state is itself what the external reset makes of it. -/
theorem State.reset_externalReset : State.reset.externalReset = State.reset := rfl

end Sys2Proof.Machine

namespace Sys2Proof.Params

/-! ### The OPEN parameters of the reset state (R10; log 5) -/

/-- The floor that `legalise` puts under a 16-bit parameter. -/
def atLeastOne (v : Half) : Half := if v = 0#16 then 1#16 else v

theorem one_le_atLeastOne (v : Half) : 1 ≤ (atLeastOne v).toNat := by
  unfold atLeastOne
  split
  · decide
  · exact Nat.one_le_iff_ne_zero.mpr fun e => ‹v ≠ 0#16› (BitVec.eq_of_toNat_eq e)

theorem atLeastOne_le {v w : Half} (hw : 1 ≤ w.toNat) (hv : v.toNat ≤ w.toNat) : (atLeastOne v).toNat ≤ w.toNat := by
  unfold atLeastOne
  split
  · exact hw
  · exact hv

theorem legalise_nbInc (p : Params) : p.legalise.nbInc =
    if p.legalise.nbWindow.toNat < p.nbInc.toNat then p.legalise.nbWindow else atLeastOne p.nbInc := rfl

theorem legalise_fallback_ne (p : Params) : p.legalise.fallback ≠ 0#15 := by
  simp only [legalise]
  split
  · decide
  · exact ‹_›

theorem legalise_legal (p : Params) : p.legalise.Legal where
  softstart_pos := one_le_atLeastOne p.softstart
  blkWindow_pos := one_le_atLeastOne p.blkWindow
  nbWindow_pos := one_le_atLeastOne p.nbWindow
  nbInc_pos := by
    rw [legalise_nbInc]
    split
    · exact one_le_atLeastOne p.nbWindow
    · exact one_le_atLeastOne p.nbInc
  nbInc_le := by
    rw [legalise_nbInc]
    split
    · exact le_rfl
    · exact atLeastOne_le (one_le_atLeastOne p.nbWindow) (Nat.le_of_not_lt ‹_›)
  fallback_ne := p.legalise_fallback_ne

end Sys2Proof.Params

namespace Sys2Proof.Proofs

open Sys2Proof.Machine Sys2Proof.Claims

/-- Settles O1: the external reset writes every PBSB register, and the reset state is its own reset. -/
theorem resetPutsEveryRegisterAtItsValue : Obligations.ResetPutsEveryRegisterAtItsValue :=
  ⟨State.reset_externalReset ▸ State.reset.externalReset_atReset,
    fun s ha => ⟨_, step_reset ha, s.takeTurn.externalReset_atReset⟩⟩

/-- Settles O58: legalised parameters are legal, and each unit's reset record meets its part of the invariant. -/
theorem resetMeetsTheInvariant : Obligations.ResetMeetsTheInvariant := by
  refine (State.inv_iff _).mpr ⟨Params.legalise_legal _, Mps.reset_inv _, Dbu.reset_inv _, fun k => ?_⟩
  have fde : State.reset.fde[k] = FdeModule.reset := State.reset.externalReset_module k
  exact fde ▸ FdeModule.reset_inv (isRotation k)

end Sys2Proof.Proofs
